-- ==== Sys2Proof/Word.lean ====
section
/-! DEFINITION. The words of DXTE and the colour triple (spec 10_state.md R21 to R30). -/

namespace Sys2Proof

/-- A 32-bit register value, bus data word or command word (10_state.md R21 to R26). -/
abbrev Word := BitVec 32

/-- One byte of the output block, or one 8-bit colour component or alpha (00_scope.md R7). -/
abbrev Byte := BitVec 8

/-- A colour: "a 3-component integer triple (R,G,B), each component range 0..255" (00_scope.md section 5). -/
structure Color where
  r : Byte
  g : Byte
  b : Byte
  deriving DecidableEq, Repr, Inhabited

end Sys2Proof
end

