-- ==== Sys2Proof/Syntax.lean ====
section
/-! DEFINITION. The instructions of DXTE as terms: one constructor per row of spec/opcode_table.json
(30_encoding.md R60, R62, R69), and the names the decoder gives what is not an instruction. -/

namespace Sys2Proof

/-- The colour distance a command selects, in the order of its codes (30_encoding.md R65). -/
inductive Metric where
  | rgb
  | srgb
  | yuv
  | avg
  deriving DecidableEq, Repr

/-- The DXT format a command selects (30_encoding.md R64); the reserved code 3 is no mode. -/
inductive Mode where
  | dxt1
  | dxt3
  | dxt5
  deriving DecidableEq, Repr

/-- DXTE's whole opcode set (30_encoding.md R69): the six bus operations of R62 and the three commands.
`w` and `h` are the 3-bit fields W and H as the command word holds them (R66); `pte` is CMD[12] (R67). -/
inductive Instr where
  /-- RD.CMD (45_commands.md R168). -/
  | rdCmd
  /-- WR.CMD with its write data (45_commands.md R167). -/
  | wrCmd (v : Word)
  /-- RD.STATUS (45_commands.md R169). -/
  | rdStatus
  /-- RD.PIX of slot k (45_commands.md R171). -/
  | rdPix (k : Fin 16)
  /-- WR.PIX of slot k with its write data (45_commands.md R170). -/
  | wrPix (k : Fin 16) (v : Word)
  /-- RD.OUT of word i (45_commands.md R172). -/
  | rdOut (i : Fin 4)
  /-- ENC.DXT1 (45_commands.md R161). -/
  | encDxt1 (metric : Metric) (w h : BitVec 3) (pte : Bool)
  /-- ENC.DXT3 (45_commands.md R162); PTE is carried and ignored (30_encoding.md R67). -/
  | encDxt3 (metric : Metric) (w h : BitVec 3) (pte : Bool)
  /-- ENC.DXT5 (45_commands.md R163); PTE is carried and ignored (30_encoding.md R67). -/
  | encDxt5 (metric : Metric) (w h : BitVec 3) (pte : Bool)
  deriving DecidableEq, Repr

/-- Why a bus access is no bus operation (60_exceptions.md R186 lists the causes). -/
inductive BusFault where
  /-- A width other than 32 bits (20_memory.md R43). -/
  | width
  /-- OFF[1:0] is not 0 (20_memory.md R44). -/
  | misaligned
  /-- A write to STATUS or OUT (20_memory.md R45). -/
  | readOnly
  /-- A reserved offset (20_memory.md R45). -/
  | reservedOffset
  deriving DecidableEq, Repr

/-- The command errors DXTE reports in STATUS.ERR (60_exceptions.md R181). Code 5 is "reserved, never
reported" (R195) and is no member. -/
inductive CmdError where
  /-- ERR_INVALID_BLOCK_SIZE, code 1 (60_exceptions.md R184). -/
  | invalidBlockSize
  /-- ERR_RESERVED_MODE, code 2 (60_exceptions.md R183). -/
  | reservedMode
  /-- ERR_RESERVED_BITS, code 3 (60_exceptions.md R182). -/
  | reservedBits
  /-- ERR_UNWRITTEN_PIXEL, code 4 (60_exceptions.md R185). -/
  | unwrittenPixel
  deriving DecidableEq, Repr

end Sys2Proof
end

