-- ==== Sys2Proof/WellFormed.lean ====
section
/-! DEFINITION. Which instructions are well formed: the operand ranges the encoding cannot hold by itself
(30_encoding.md R66). Slot and word numbers are bounded by their types (R61). -/

namespace Sys2Proof

/-- A legal block dimension: "Legal values are 1, 2, 3 and 4 for each" (30_encoding.md R66). -/
def sizeOk (d : BitVec 3) : Bool := decide (1 ≤ d.toNat) && decide (d.toNat ≤ 4)

namespace Instr

/-- The checks on an instruction's operands, as a Bool. -/
def wf : Instr → Bool
  | .rdCmd => true
  | .wrCmd _ => true
  | .rdStatus => true
  | .rdPix _ => true
  | .wrPix _ _ => true
  | .rdOut _ => true
  | .encDxt1 _ w h _ => sizeOk w && sizeOk h
  | .encDxt3 _ w h _ => sizeOk w && sizeOk h
  | .encDxt5 _ w h _ => sizeOk w && sizeOk h

/-- A well-formed instruction. -/
abbrev WellFormed (i : Instr) : Prop := i.wf = true

end Instr

end Sys2Proof
end

