-- ==== Sys2Proof/Decode.lean ====
section
/-! DEFINITION. The decoder of DXTE's two word formats (30_encoding.md R60 to R71), total, rejecting by
name; then the encoder, written from the same pattern strings. -/

namespace Sys2Proof

/-! ### Fields of the command word (30_encoding.md R63, R71) -/

/-- MODE = CMD[1:0]. -/
def cmdMode (v : Word) : BitVec 2 := v.extractLsb' 0 2
/-- METRIC = CMD[3:2]. -/
def cmdMetric (v : Word) : BitVec 2 := v.extractLsb' 2 2
/-- W = CMD[6:4]. -/
def cmdW (v : Word) : BitVec 3 := v.extractLsb' 4 3
/-- H = CMD[10:8]. -/
def cmdH (v : Word) : BitVec 3 := v.extractLsb' 8 3
/-- PTE = CMD[12]. -/
def cmdPte (v : Word) : Bool := v.getLsbD 12

/-- "The reserved-bit mask is 0xFFFFE880" (30_encoding.md R68). -/
def reservedMask : Word := 0xFFFFE880#32
/-- The mask of the opcode match, `word & 0xFFFFE883` (30_encoding.md R69). -/
def opcodeMask : Word := 0xFFFFE883#32

/-- The metric of a METRIC code: 0 = RGB, 1 = SRGB, 2 = YUV, 3 = AVG (30_encoding.md R65). -/
def metricOfCode (c : BitVec 2) : Metric :=
  if c = 0#2 then .rgb else if c = 1#2 then .srgb else if c = 2#2 then .yuv else .avg

/-- The METRIC code of a metric (30_encoding.md R65). -/
def codeOfMetric : Metric → BitVec 2
  | .rgb => 0#2
  | .srgb => 1#2
  | .yuv => 2#2
  | .avg => 3#2

/-- The MODE code of a mode: DXT1 0, DXT3 1, DXT5 2 (30_encoding.md R64). -/
def codeOfMode : Mode → BitVec 2
  | .dxt1 => 0#2
  | .dxt3 => 1#2
  | .dxt5 => 2#2

/-! ### The decoder -/

/-- The command decode (30_encoding.md R69): the three opcode matches; any other word has a reserved bit
set (R68) or MODE = 3 (R64), and the reserved bits are named first (60_exceptions.md R188). -/
def decodeCmd (v : Word) : Except CmdError Instr :=
  if v &&& opcodeMask = 0x00000000#32 then
    .ok (.encDxt1 (metricOfCode (cmdMetric v)) (cmdW v) (cmdH v) (cmdPte v))
  else if v &&& opcodeMask = 0x00000001#32 then
    .ok (.encDxt3 (metricOfCode (cmdMetric v)) (cmdW v) (cmdH v) (cmdPte v))
  else if v &&& opcodeMask = 0x00000002#32 then
    .ok (.encDxt5 (metricOfCode (cmdMetric v)) (cmdW v) (cmdH v) (cmdPte v))
  else if v &&& reservedMask ≠ 0#32 then .error .reservedBits
  else .error .reservedMode

/-- WE of a bus transaction word (30_encoding.md R61). -/
def busWe (bt : BitVec 9) : Bool := bt.getLsbD 8
/-- OFF of a bus transaction word (30_encoding.md R61). -/
def busOff (bt : BitVec 9) : BitVec 8 := bt.extractLsb' 0 8

/-- The name of the reason why a 9-bit word is in the "any other" row of 30_encoding.md R62. -/
def busFaultOf (bt : BitVec 9) : BusFault :=
  if busOff bt &&& 0x03#8 ≠ 0#8 then .misaligned
  else if busOff bt = 0x04#8 ∨ busOff bt &&& 0xF0#8 = 0x80#8 then .readOnly
  else .reservedOffset

/-- The BUS decode of a 32-bit access (30_encoding.md R62), row by row in the order of its table; `data` is
the write data, which only the two writes take. -/
def decodeBus (bt : BitVec 9) (data : Word) : Except BusFault Instr :=
  if bt = 0x000#9 then .ok .rdCmd
  else if bt = 0x100#9 then .ok (.wrCmd data)
  else if bt = 0x004#9 then .ok .rdStatus
  else if bt &&& 0x1C3#9 = 0x040#9 then .ok (.rdPix (bt.extractLsb' 2 4).toFin)
  else if bt &&& 0x1C3#9 = 0x140#9 then .ok (.wrPix (bt.extractLsb' 2 4).toFin data)
  else if bt &&& 0x1F3#9 = 0x080#9 then .ok (.rdOut (bt.extractLsb' 2 2).toFin)
  else .error (busFaultOf bt)

/-- The two kinds of words DXTE decodes (30_encoding.md R60): a bus transaction word with its data word,
or a command word. -/
inductive Words where
  | bus (bt : BitVec 9) (data : Word)
  | cmd (v : Word)
  deriving DecidableEq, Repr

/-- Why words are no instruction. -/
inductive DecodeError where
  | bus (e : BusFault)
  | cmd (e : CmdError)
  deriving DecidableEq, Repr

/-- The decoder on either kind of words. -/
def decode : Words → Except DecodeError Instr
  | .bus bt data =>
    match decodeBus bt data with
    | .ok i => .ok i
    | .error e => .error (.bus e)
  | .cmd v =>
    match decodeCmd v with
    | .ok i => .ok i
    | .error e => .error (.cmd e)

/-- The instruction of an opcode-table row's word. The BUS rows have 9 bits (two bytes), the CMD rows 32;
bits above the format's width are 0, and a write's data word, which the table gives no bits, is 0. -/
def decodeTableWord (nbits w : Nat) : Option Instr :=
  if nbits ≤ 16 then
    if w < 2 ^ 9 then (decodeBus (BitVec.ofNat 9 w) 0#32).toOption else none
  else if w < 2 ^ 32 then (decodeCmd (BitVec.ofNat 32 w)).toOption
  else none

/-! ### The encoder -/

/-- The command word, "most significant bit first: `0000000000000000000 P 0 hhh 0 www mm dd`"
(30_encoding.md R63). -/
def encodeCmd (mode : Mode) (metric : Metric) (w h : BitVec 3) (pte : Bool) : Word :=
  0#19 ++ BitVec.ofBool pte ++ 0#1 ++ h ++ 0#1 ++ w ++ codeOfMetric metric ++ codeOfMode mode

/-- The words of an instruction: the patterns of 30_encoding.md R62 and R63. -/
def encode : Instr → Words
  | .rdCmd => .bus (0#1 ++ 0b00000000#8) 0#32
  | .wrCmd v => .bus (1#1 ++ 0b00000000#8) v
  | .rdStatus => .bus (0#1 ++ 0b00000100#8) 0#32
  | .rdPix k => .bus (0#1 ++ 0b01#2 ++ BitVec.ofFin (w := 4) k ++ 0b00#2) 0#32
  | .wrPix k v => .bus (1#1 ++ 0b01#2 ++ BitVec.ofFin (w := 4) k ++ 0b00#2) v
  | .rdOut i => .bus (0#1 ++ 0b1000#4 ++ BitVec.ofFin (w := 2) i ++ 0b00#2) 0#32
  | .encDxt1 metric w h pte => .cmd (encodeCmd .dxt1 metric w h pte)
  | .encDxt3 metric w h pte => .cmd (encodeCmd .dxt3 metric w h pte)
  | .encDxt5 metric w h pte => .cmd (encodeCmd .dxt5 metric w h pte)

end Sys2Proof
end

