-- ==== Sys2Proof/Machine/Hidden.lean ====
section
/-! DEFINITION. DXTE's hidden state as plain data (10_state.md R20, R29, R30): the snapshot of the accepted
command and the working state of an encode. -/

namespace Sys2Proof.Machine

/-- The best-pair registers of the colour reducer (10_state.md R30, 42_color_reducer.md R115). -/
structure BestPair where
  cost : Int
  i : Nat
  j : Nat
  deriving DecidableEq, Repr, Inhabited

/-- A 16 by 16 distance matrix of exact integers (10_state.md R30, 41_distance_metrics.md R97). -/
abbrev Matrix16 := Vector (Vector Int 16) 16

/-- The working state of an encode (10_state.md R30). -/
structure Work where
  /-- C[0..15], the sample colours (40_sample_collector.md R83). -/
  c : Vector Color 16
  /-- A[0..15], the sample alphas (40_sample_collector.md R83). -/
  a : Vector Byte 16
  /-- D, the colour distance matrix (42_color_reducer.md R110). -/
  d : Matrix16
  /-- The best-pair registers (42_color_reducer.md R115). -/
  best : BestPair
  /-- AD, the alpha distance matrix (43_alpha_reducer.md R120). -/
  ad : Matrix16
  /-- colors[0] (42_color_reducer.md R114). -/
  color0 : Color
  /-- colors[1] (42_color_reducer.md R114). -/
  color1 : Color
  /-- alpha[0] (43_alpha_reducer.md R124). -/
  alpha0 : Byte
  /-- alpha[1] (43_alpha_reducer.md R124). -/
  alpha1 : Byte
  /-- OB[0..15], the output buffer (44_block_packer.md R132). -/
  ob : Vector Byte 16
  deriving DecidableEq, Repr, Inhabited

/-- The hidden state: the snapshot (10_state.md R29) and the working state (R30). -/
structure Hidden where
  /-- SNAP_CMD. -/
  snapCmd : Word
  /-- SNAP_PIX[0..15]. -/
  snapPix : Vector Word 16
  /-- The working state. -/
  work : Work
  deriving DecidableEq, Repr, Inhabited

/-- All-zero working state: the model's value at reset (DESIGN CHOICE, log 2, unsafe). -/
def Work.zero : Work where
  c := Vector.replicate 16 ⟨0#8, 0#8, 0#8⟩
  a := Vector.replicate 16 0#8
  d := Vector.replicate 16 (Vector.replicate 16 0)
  best := ⟨0, 0, 0⟩
  ad := Vector.replicate 16 (Vector.replicate 16 0)
  color0 := ⟨0#8, 0#8, 0#8⟩
  color1 := ⟨0#8, 0#8, 0#8⟩
  alpha0 := 0#8
  alpha1 := 0#8
  ob := Vector.replicate 16 0#8

/-- All-zero hidden state: the model's value at reset (DESIGN CHOICE, log 2, unsafe). -/
def Hidden.zero : Hidden where
  snapCmd := 0#32
  snapPix := Vector.replicate 16 0#32
  work := Work.zero

end Sys2Proof.Machine
end

