-- ==== Sys2Proof/Config.lean ====
section
/-! DEFINITION. What the spec leaves to the implementation: the metric parameters (00_scope.md R8) and the
free value of the hidden state between commands (10_state.md R30). -/

namespace Sys2Proof.Config

/-- A count of a rounding right shift: SHRR(x, n) is defined for n ≥ 1 (41_distance_metrics.md R90; log 12). -/
abbrev ShiftCount := { n : Nat // 1 ≤ n }

/-- A weight triple (wr, wg, wb) (00_scope.md R8). -/
structure Weights where
  wr : Int
  wg : Int
  wb : Int
  deriving DecidableEq, Repr

/-- SRGB_PRE = (p1, p2) (00_scope.md R8). -/
structure SrgbPre where
  p1 : ShiftCount
  p2 : ShiftCount
  deriving DecidableEq, Repr

/-- SRGB_POST = (q1, q2, q3) (00_scope.md R8). -/
structure SrgbPost where
  q1 : ShiftCount
  q2 : ShiftCount
  q3 : ShiftCount
  deriving DecidableEq, Repr

/-- The metric parameters as "one configuration record" (00_scope.md R8). Nothing of them is assumed beyond
their types; a claim that needs the defaults names `defaults`. -/
structure Params where
  wyYuv : Weights
  wyRgb : Weights
  wySrgb : Weights
  kSrgb : Int
  srgbPre : SrgbPre
  srgbPost : SrgbPost
  deriving DecidableEq, Repr

/-- The free value of the hidden state after a completion: its value between commands is "unspecified and
unobservable" (10_state.md R30; 93_implementation_defined.md item 8; log 3). No body: nothing can say what it is. -/
opaque freeHidden : Nat → Machine.Hidden

end Sys2Proof.Config
end

