-- ==== Sys2Proof/Machine/Defaults.lean ====
section
/-! DEFINITION. The parameter values 00_scope.md R7 and R8 name. -/

namespace Sys2Proof.Config

/-- The default parameter values of 00_scope.md R8. PRESUMED: the spec itself marks them "from general
knowledge, not in source" (log 6, unsafe). -/
def defaults : Params where
  wyYuv := ⟨60, 59, 22⟩
  wyRgb := ⟨42, 72, 14⟩
  wySrgb := ⟨84, 72, 28⟩
  kSrgb := 409
  srgbPre := ⟨⟨3, by decide⟩, ⟨4, by decide⟩⟩
  srgbPost := ⟨⟨4, by decide⟩, ⟨8, by decide⟩, ⟨9, by decide⟩⟩

/-- K_LUMA = 202, fixed by the source (00_scope.md R7, R8). -/
def kLuma : Int := 202

end Sys2Proof.Config
end

