-- ==== Sys2Proof/Machine/State.lean ====
section
/-! DEFINITION. The state of DXTE (10_state.md), the reasons a step could stop, and the state after reset. -/

namespace Sys2Proof.Machine

/-- One bus access as the host puts it on the bus: its width in bits, its bus transaction word (30_encoding.md
R61) and its data word, which a read does not carry (20_memory.md R42; log 13). -/
structure Access where
  width : Nat
  bt : BitVec 9
  data : Word
  deriving DecidableEq, Repr

/-- One turn of one agent (00_scope.md R9, 70_reset_and_hazards.md R210; log 4). -/
inductive Turn where
  /-- The host performs a bus access. -/
  | access (a : Access)
  /-- The encoder may take its completion step, which is enabled only while BUSY = 1. -/
  | encoder
  /-- The platform asserts reset. -/
  | reset
  deriving DecidableEq, Repr

/-- The bus's response to one access (log 5). -/
inductive Reply where
  /-- A read's data. -/
  | data (v : Word)
  /-- A write was performed (a dropped WR.CMD too: "The bus access itself succeeds", 60_exceptions.md R187). -/
  | written
  /-- BusError with the offending offset (60_exceptions.md R186). -/
  | busError (off : BitVec 8)
  deriving DecidableEq, Repr

/-- Everything the spec gives the machine (10_state.md R20), and the model's own fields `params`, `turns`,
`replies` and `freeCount` (INVENTORY.md, State). -/
structure State where
  /-- CMD (10_state.md R21, R22). -/
  cmd : Word
  /-- STATUS.BUSY, which is the encoder phase (10_state.md R23, R31). -/
  busy : Bool
  /-- STATUS.DONE (10_state.md R23). -/
  done : Bool
  /-- STATUS.ERR (10_state.md R23). -/
  err : BitVec 4
  /-- STATUS.DROP (10_state.md R23). -/
  drop : Bool
  /-- PV[0..15], STATUS.PVALID (10_state.md R25): PV[k] is bit k. -/
  pv : BitVec 16
  /-- PIX[0..15] (10_state.md R24). -/
  pix : Vector Word 16
  /-- OUT[0..3] (10_state.md R26). -/
  out : Vector Word 4
  /-- The snapshot and the working state (10_state.md R29, R30). -/
  hidden : Hidden
  /-- The model's own: the metric parameters, which no step writes (00_scope.md R8; log 6). -/
  params : Config.Params
  /-- The model's own: the turns still to be taken, oldest first (log 4). -/
  turns : List Turn
  /-- The model's own: the responses given to the host, newest first (log 5). -/
  replies : List Reply
  /-- The model's own: how many free values of the hidden state were taken (log 3). -/
  freeCount : Nat
  deriving DecidableEq, Repr

/-- Reasons for a fault: none. "DXTE raises no trap" and "There is no error state a model must treat as a
fault or a stuck state of DXTE" (60_exceptions.md R180). Nobody raises one; that is faithful, hence safe. -/
inductive Fault where
  deriving DecidableEq, Repr

/-- Reasons for a refusal. -/
inductive Refusal where
  /-- Raised by an arm of `exec` whose instruction has no meaning yet; no arm of this model raises it. Safe:
  the machine stops where the hardware goes on. -/
  | notModelled (mnemonic : String)
  deriving DecidableEq, Repr

/-- The machine right after reset (70_reset_and_hazards.md R200 and the table of 10_state.md section 8), with
no turn waiting. PIX and the hidden state have no reset value in the spec: zero, DESIGN CHOICE (logs 1 and 2,
unsafe). The parameters are the spec's defaults, PRESUMED (log 6, unsafe). `freeCount` 0: DESIGN CHOICE (log 3). -/
def State.reset : State where
  cmd := 0#32
  busy := false
  done := false
  err := 0#4
  drop := false
  pv := 0#16
  pix := Vector.replicate 16 0#32
  out := Vector.replicate 4 0#32
  hidden := Hidden.zero
  params := Config.defaults
  turns := []
  replies := []
  freeCount := 0

end Sys2Proof.Machine
end

