-- ==== Sys2Proof/Machine/Operands.lean ====
section
/-! DEFINITION. The operand forms: pixel words, used positions, samples and the operands of a command
(30_encoding.md R71, 40_sample_collector.md R80 to R82, 10_state.md R24). -/

namespace Sys2Proof.Machine

/-! ### Pixel words (10_state.md R24, 20_memory.md R47) -/

/-- The colour of a pixel word: R = [7:0], G = [15:8], B = [23:16]. -/
def pixelColor (p : Word) : Color := ⟨p.extractLsb' 0 8, p.extractLsb' 8 8, p.extractLsb' 16 8⟩

/-- The alpha of a pixel word: A = [31:24]. -/
def pixelAlpha (p : Word) : Byte := p.extractLsb' 24 8

/-! ### Positions and samples -/

/-- The used positions `pos = x + 4*y`, 0 ≤ x < W, 0 ≤ y < H, row by row (40_sample_collector.md R80). -/
def usedPositions (w h : Nat) : List Nat :=
  (List.range h).flatMap fun y => (List.range w).map fun x => x + 4 * y

/-- The position of sample k: `(k mod W) + 4*(k div W)` (40_sample_collector.md R82). -/
def samplePos (w k : Nat) : Nat := k % w + 4 * (k / w)

/-- Element k of a register array, read by a computed index. Every index a legal command computes is below
the array's size; past it the read gives the type's default and no reachable state does so (log 15). -/
def entry {α : Type} [Inhabited α] {n : Nat} (v : Vector α n) (k : Nat) : α := v[k]?.getD default

/-! ### Operands of a command (30_encoding.md R71) -/

/-- The operands a command is run with: mode, metric, W, H and pte, each the unsigned field value. -/
structure Operands where
  mode : Mode
  metric : Metric
  w : Nat
  h : Nat
  pte : Bool
  deriving DecidableEq, Repr

/-- `n = W * H` (40_sample_collector.md R81). -/
def Operands.n (o : Operands) : Nat := o.w * o.h

/-- The output size: 8 bytes for DXT1, 16 for DXT3 and DXT5 (44_block_packer.md R132). -/
def modeSize : Mode → Nat
  | .dxt1 => 8
  | .dxt3 => 16
  | .dxt5 => 16

/-- The byte where color0 stands: 0 for DXT1, 8 for DXT3 and DXT5 (44_block_packer.md R135 to R137, R149). -/
def colorBase : Mode → Nat
  | .dxt1 => 0
  | .dxt3 => 8
  | .dxt5 => 8

/-- The byte where the colour index field starts (44_block_packer.md R142, R149). -/
def indexBase (m : Mode) : Nat := colorBase m + 4

/-! ### Bus operands (30_encoding.md R61) -/

/-- OFF of an access. -/
def Access.off (a : Access) : BitVec 8 := busOff a.bt

end Sys2Proof.Machine
end

