-- ==== Sys2Proof/Machine/Metrics.lean ====
section
/-! DEFINITION. The distance metrics (41_distance_metrics.md), on exact integers (R97). -/

namespace Sys2Proof.Machine

/-- SHRR(x, n), the rounding right shift: `floor((x + 2^(n-1)) / 2^n)` (41_distance_metrics.md R90); the shift is
the floor shift also for negative x. -/
def shrr (x : Int) (n : Config.ShiftCount) : Int := (x + 2 ^ (n.val - 1)) / 2 ^ n.val

/-- A component or alpha as an integer. -/
def comp (x : Byte) : Int := (x.toNat : Int)

/-- DIST_AVG (41_distance_metrics.md R92). -/
def distAvg (a b : Color) : Int :=
  let dr := comp a.r - comp b.r
  let dg := comp a.g - comp b.g
  let db := comp a.b - comp b.b
  dr * dr + dg * dg + db * db

/-- DIST_LUMA with a weight triple and K_LUMA (41_distance_metrics.md R93). -/
def distLuma (wy : Config.Weights) (a b : Color) : Int :=
  let dr := comp a.r - comp b.r
  let dg := comp a.g - comp b.g
  let db := comp a.b - comp b.b
  let y := dr * wy.wr + dg * wy.wg + db * wy.wb
  let u := dr * Config.kLuma - y
  let v := db * Config.kLuma - y
  2 * y * y + shrr (u * u) ⟨3, by decide⟩ + shrr (v * v) ⟨4, by decide⟩

/-- DIST_YUV is DIST_LUMA with WY_YUV (41_distance_metrics.md R93). -/
def distYuv (p : Config.Params) (a b : Color) : Int := distLuma p.wyYuv a b

/-- DIST_RGB is DIST_LUMA with WY_RGB (41_distance_metrics.md R94). -/
def distRgb (p : Config.Params) (a b : Color) : Int := distLuma p.wyRgb a b

/-- DIST_SRGB: differences of squared channels, and the product of the two shifted copies of y, u and v
(41_distance_metrics.md R95). -/
def distSrgb (p : Config.Params) (a b : Color) : Int :=
  let dr := comp a.r * comp a.r - comp b.r * comp b.r
  let dg := comp a.g * comp a.g - comp b.g * comp b.g
  let db := comp a.b * comp a.b - comp b.b * comp b.b
  let y := dr * p.wySrgb.wr + dg * p.wySrgb.wg + db * p.wySrgb.wb
  let u := dr * p.kSrgb - y
  let v := db * p.kSrgb - y
  let sy := shrr y p.srgbPre.p1 * shrr y p.srgbPre.p2
  let su := shrr u p.srgbPre.p1 * shrr u p.srgbPre.p2
  let sv := shrr v p.srgbPre.p1 * shrr v p.srgbPre.p2
  shrr sy p.srgbPost.q1 + shrr su p.srgbPost.q2 + shrr sv p.srgbPost.q3

/-- DIST, the colour distance METRIC selects; the first argument is the candidate or endpoint, the second
the sample or pixel (41_distance_metrics.md R91, R98). -/
def dist (p : Config.Params) : Metric → Color → Color → Int
  | .rgb, a, b => distRgb p a b
  | .srgb, a, b => distSrgb p a b
  | .yuv, a, b => distYuv p a b
  | .avg, a, b => distAvg a b

/-- DIST_ALPHA (41_distance_metrics.md R96). -/
def distAlpha (a b : Byte) : Int := (comp a - comp b) * (comp a - comp b)

end Sys2Proof.Machine
end

