-- ==== Sys2Proof/Machine/Packer.lean ====
section
/-! DEFINITION. The block packer (44_block_packer.md): canonical order, RGB565, the bit-packer and the
per-pixel codes, as writes to the working state. -/

namespace Sys2Proof.Machine

/-! ### Canonical endpoint order -/

/-- `lexless(a, b)`: R first, then G, then B, on the 8-bit components (44_block_packer.md R130). -/
def lexless (a b : Color) : Bool :=
  decide (a.r.toNat < b.r.toNat) ||
    (a.r == b.r && (decide (a.g.toNat < b.g.toNat) ||
      (a.g == b.g && decide (a.b.toNat < b.b.toNat))))

/-- CANON (44_block_packer.md R131). -/
def canon (wk : Work) : Work :=
  if lexless wk.color0 wk.color1 then { wk with color0 := wk.color1, color1 := wk.color0 } else wk

/-! ### The output buffer -/

/-- PACK565 (44_block_packer.md R133): {r[7:3], g[7:2], b[7:3]}. -/
def pack565 (c : Color) : BitVec 16 :=
  c.r.extractLsb' 3 5 ++ c.g.extractLsb' 2 6 ++ c.b.extractLsb' 3 5

/-- `OB[b] <- v`. -/
def storeByte (ob : Vector Byte 16) (b : Nat) (v : Byte) : Vector Byte 16 := ob.setIfInBounds b v

/-- WRITE16LE (44_block_packer.md R134). -/
def write16le (ob : Vector Byte 16) (b : Nat) (v : BitVec 16) : Vector Byte 16 :=
  storeByte (storeByte ob b (v.extractLsb' 0 8)) (b + 1) (v.extractLsb' 8 8)

/-- SETBIT (44_block_packer.md R138): ORs `1 << (t mod 8)` into byte `base + t div 8`. -/
def setBit (base t : Nat) (ob : Vector Byte 16) : Vector Byte 16 :=
  storeByte ob (base + t / 8) (entry ob (base + t / 8) ||| (1#8 <<< (t % 8)))

/-- Stream bit t of the bit stream that starts at byte `base`: "bit `t mod 8` of byte `base + t div 8`"
(20_memory.md R46). -/
def streamBit (base t : Nat) (ob : Vector Byte 16) : Bool := (entry ob (base + t / 8)).getLsbD (t % 8)

/-- A code of L bits for position pos: SETBIT(base, L*pos + e) for every e with c[e] = 1
(44_block_packer.md R138). -/
def writeCode {L : Nat} (base pos : Nat) (c : BitVec L) (ob : Vector Byte 16) : Vector Byte 16 :=
  (List.range L).foldl (fun ob e => if c.getLsbD e then setBit base (L * pos + e) ob else ob) ob

/-- The zero fill of OB[0..size-1] (44_block_packer.md R132); bytes past the size are not written. -/
def zeroFill (m : Mode) (ob : Vector Byte 16) : Vector Byte 16 :=
  Vector.ofFn fun b : Fin 16 => if b.val < modeSize m then 0#8 else ob[b]

/-- The endpoint stores of a mode (44_block_packer.md R135, R136, R137). -/
def writeEndpoints (m : Mode) (wk : Work) (ob : Vector Byte 16) : Vector Byte 16 :=
  let ob := write16le ob (colorBase m) (pack565 wk.color0)
  let ob := write16le ob (colorBase m + 2) (pack565 wk.color1)
  match m with
  | .dxt1 => ob
  | .dxt3 => ob
  | .dxt5 => storeByte (storeByte ob 0 wk.alpha0) 1 wk.alpha1

/-! ### The codes of a pixel -/

/-- CIDX (44_block_packer.md R140): 1 iff the pixel is strictly closer to color1; a tie gives 0. -/
def cidx (p : Config.Params) (m : Metric) (color0 color1 pc : Color) : BitVec 2 :=
  if dist p m color0 pc > dist p m color1 pc then 1#2 else 0#2

/-- CIDX1 (44_block_packer.md R141): the punch-through code 3 for alpha 0 with PTE = 1. -/
def cidx1 (p : Config.Params) (m : Metric) (pte : Bool) (color0 color1 pc : Color) (pa : Byte) : BitVec 2 :=
  if pte = true ∧ pa = 0#8 then 3#2 else cidx p m color0 color1 pc

/-- Q4 (44_block_packer.md R143): the top four bits of the alpha. -/
def q4 (pa : Byte) : BitVec 4 := pa.extractLsb' 4 4

/-- ACODE (44_block_packer.md R145, code values R146): the least distance wins; among equal ones endpoint 1,
then 255, then endpoint 0, then 0. -/
def acode (alpha0 alpha1 pa : Byte) : BitVec 3 :=
  let d0 := distAlpha alpha0 pa
  let d1 := distAlpha alpha1 pa
  let dz := distAlpha 0#8 pa
  let df := distAlpha 255#8 pa
  let m := min (min d0 d1) (min dz df)
  if d1 = m then 1#3 else if df = m then 7#3 else if d0 = m then 0#3 else 6#3

/-- The colour code of a pixel in each mode (44_block_packer.md R140, R141, R149). -/
def colorCode (p : Config.Params) (o : Operands) (wk : Work) (px : Word) : BitVec 2 :=
  match o.mode with
  | .dxt1 => cidx1 p o.metric o.pte wk.color0 wk.color1 (pixelColor px) (pixelAlpha px)
  | .dxt3 => cidx p o.metric wk.color0 wk.color1 (pixelColor px)
  | .dxt5 => cidx p o.metric wk.color0 wk.color1 (pixelColor px)

/-- The alpha writes of a pixel: none in DXT1, the nibble of R144 in DXT3, the code of R147 in DXT5. -/
def writeAlpha (o : Operands) (wk : Work) (pos : Nat) (px : Word) (ob : Vector Byte 16) : Vector Byte 16 :=
  match o.mode with
  | .dxt1 => ob
  | .dxt3 => writeCode 0 pos (q4 (pixelAlpha px)) ob
  | .dxt5 => writeCode 2 pos (acode wk.alpha0 wk.alpha1 (pixelAlpha px)) ob

/-- The writes of one used position (44_block_packer.md R139, R142, R149). -/
def writePixelCodes (p : Config.Params) (o : Operands) (pix : Vector Word 16) (wk : Work)
    (ob : Vector Byte 16) (pos : Nat) : Vector Byte 16 :=
  writeAlpha o wk pos (entry pix pos)
    (writeCode (indexBase o.mode) pos (colorCode p o wk (entry pix pos)) ob)

/-- PACK (44_block_packer.md R149): CANON, zero fill, endpoints, then the codes of the used positions. -/
def pack (p : Config.Params) (o : Operands) (pix : Vector Word 16) (wk : Work) : Work :=
  let wk := canon wk
  let ob := writeEndpoints o.mode wk (zeroFill o.mode wk.ob)
  { wk with ob := (usedPositions o.w o.h).foldl (writePixelCodes p o pix wk) ob }

end Sys2Proof.Machine
end

