-- ==== Sys2Proof/Machine/Reducers.lean ====
section
/-! DEFINITION. The sample collector and the two endpoint selectors, as writes to the working state
(40_sample_collector.md, 42_color_reducer.md, 43_alpha_reducer.md). Each loop that writes every entry of an
array once is given by the array it leaves: entries the loop does not write keep their content. -/

namespace Sys2Proof.Machine

/-- COLLECT (40_sample_collector.md R83): sample k < n takes colour and alpha of SNAP_PIX at its position;
"Slots C[k], A[k] for k ≥ n are not written". -/
def collect (w h : Nat) (pix : Vector Word 16) (wk : Work) : Work :=
  { wk with
    c := Vector.ofFn fun k : Fin 16 =>
      if k.val < w * h then pixelColor (entry pix (samplePos w k.val)) else wk.c[k]
    a := Vector.ofFn fun k : Fin 16 =>
      if k.val < w * h then pixelAlpha (entry pix (samplePos w k.val)) else wk.a[k] }

/-- The pairs (i, j), 0 ≤ i < j < n, in increasing lexicographic order (42_color_reducer.md R112). -/
def pairs (n : Nat) : List (Nat × Nat) :=
  (List.range n).flatMap fun i => (List.range (n - (i + 1))).map fun e => (i, i + 1 + e)

/-- One visit of the search: a pair replaces the best "only when its cost is strictly less" (42_color_reducer.md R112). -/
def visit (cost : Nat → Nat → Int) (b : BestPair) (p : Nat × Nat) : BestPair :=
  if cost p.1 p.2 < b.cost then ⟨cost p.1 p.2, p.1, p.2⟩ else b

/-- The best-pair search of both reducers, starting from the pair (0, 1) (42_color_reducer.md R115,
43_alpha_reducer.md R122, R125). -/
def search (n : Nat) (cost : Nat → Nat → Int) : BestPair :=
  (pairs n).foldl (visit cost) ⟨cost 0 1, 0, 1⟩

/-- A matrix with M[i][k] = f i k for i, k < n; its other entries keep the old content. -/
def fillMatrix (n : Nat) (f : Nat → Nat → Int) (old : Matrix16) : Matrix16 :=
  Vector.ofFn fun i : Fin 16 => Vector.ofFn fun k : Fin 16 =>
    if i.val < n ∧ k.val < n then f i.val k.val else old[i][k]

/-- M[i][k]. -/
def matrixAt (m : Matrix16) (i k : Nat) : Int := entry (entry m i) k

/-- S(i, j) = sum over k in [0, n) of min(D[i][k], D[j][k]) (42_color_reducer.md R111). -/
def colorCost (d : Matrix16) (n i j : Nat) : Int :=
  ((List.range n).map fun k => min (matrixAt d i k) (matrixAt d j k)).sum

/-- REDUCE_COLOR (42_color_reducer.md R115): D, the best-pair registers and the endpoints colors[0], colors[1];
with n = 1 the single sample is both endpoints (R113). -/
def reduceColor (p : Config.Params) (m : Metric) (n : Nat) (wk : Work) : Work :=
  if n = 1 then { wk with color0 := entry wk.c 0, color1 := entry wk.c 0 }
  else
    let d := fillMatrix n (fun i k => dist p m (entry wk.c i) (entry wk.c k)) wk.d
    let b := search n (colorCost d n)
    { wk with d := d, best := b, color0 := entry wk.c b.i, color1 := entry wk.c b.j }

/-- SA(i, j): the sum over the samples of the least of AD[i][k], AD[j][k] and the distances of the fixed
alphas 0 and 255 (43_alpha_reducer.md R121). -/
def alphaCost (ad : Matrix16) (a : Vector Byte 16) (n i j : Nat) : Int :=
  ((List.range n).map fun k =>
    min (min (matrixAt ad i k) (matrixAt ad j k))
      (min (distAlpha 0#8 (entry a k)) (distAlpha 255#8 (entry a k)))).sum

/-- The swap of the alpha endpoints to ascending order (43_alpha_reducer.md R124). -/
def setAlphas (a0 a1 : Byte) (wk : Work) : Work :=
  if a1.toNat < a0.toNat then { wk with alpha0 := a1, alpha1 := a0 }
  else { wk with alpha0 := a0, alpha1 := a1 }

/-- REDUCE_ALPHA (43_alpha_reducer.md R125); with n = 1 the single alpha is both endpoints (R123). -/
def reduceAlpha (n : Nat) (wk : Work) : Work :=
  if n = 1 then setAlphas (entry wk.a 0) (entry wk.a 0) wk
  else
    let ad := fillMatrix n (fun i k => distAlpha (entry wk.a i) (entry wk.a k)) wk.ad
    let b := search n (alphaCost ad wk.a n)
    setAlphas (entry wk.a b.i) (entry wk.a b.j) { wk with ad := ad }

end Sys2Proof.Machine
end

