-- ==== Sys2Proof/Machine/Encode.lean ====
section
/-! DEFINITION. ENCODE, the pure function of a command (45_commands.md R160), and the OUT words of its
result (R174). -/

namespace Sys2Proof.Machine

/-- The reducers of a mode: REDUCE_COLOR always, REDUCE_ALPHA for DXT5 only (45_commands.md R160). -/
def reduce (p : Config.Params) (o : Operands) (wk : Work) : Work :=
  match o.mode with
  | .dxt1 => reduceColor p o.metric o.n wk
  | .dxt3 => reduceColor p o.metric o.n wk
  | .dxt5 => reduceAlpha o.n (reduceColor p o.metric o.n wk)

/-- The stages of 45_commands.md R160 in order, from the working state that stands in the machine. -/
def encodeWork (p : Config.Params) (o : Operands) (pix : Vector Word 16) (wk : Work) : Work :=
  pack p o pix (reduce p o (collect o.w o.h pix wk))

/-- ENCODE's result: OB[0 .. size-1] (45_commands.md R160). -/
def encodeBlock (p : Config.Params) (o : Operands) (pix : Vector Word 16) (wk : Work) : List Byte :=
  (encodeWork p o pix wk).ob.toList.take (modeSize o.mode)

/-- The word {b3, b2, b1, b0} of four bytes, b0 lowest (20_memory.md R46). -/
def wordOfBytes (b0 b1 b2 b3 : Byte) : Word := b3 ++ b2 ++ b1 ++ b0

/-- Byte b of a block. -/
def blockByte (bytes : List Byte) (b : Nat) : Byte := bytes[b]?.getD 0#8

/-- The OUT words of a block: {OB[4i+3], OB[4i+2], OB[4i+1], OB[4i]} for i < size/4, and 0 for the remaining
words (45_commands.md R174). -/
def outWords (bytes : List Byte) : Vector Word 4 :=
  Vector.ofFn fun i : Fin 4 =>
    if i.val < bytes.length / 4 then
      wordOfBytes (blockByte bytes (4 * i.val)) (blockByte bytes (4 * i.val + 1))
        (blockByte bytes (4 * i.val + 2)) (blockByte bytes (4 * i.val + 3))
    else 0#32

end Sys2Proof.Machine
end

