-- ==== Sys2Proof/Machine/Flags.lean ====
section
/-! DEFINITION. STATUS: how it is read, and every change the rules make to its fields (10_state.md R23,
45_commands.md R164, R165, R169, 60_exceptions.md R181, R187). -/

namespace Sys2Proof.Machine

/-- The code of a command error in STATUS.ERR (60_exceptions.md R181). -/
def errCode : CmdError → BitVec 4
  | .invalidBlockSize => 1#4
  | .reservedMode => 2#4
  | .reservedBits => 3#4
  | .unwrittenPixel => 4#4

namespace State

/-- STATUS as software reads it: {PV[15..0], 7'b0, DROP, ERR, 2'b0, DONE, BUSY} (45_commands.md R169). -/
def statusWord (s : State) : Word :=
  s.pv ++ 0#7 ++ BitVec.ofBool s.drop ++ s.err ++ 0#2 ++ BitVec.ofBool s.done ++ BitVec.ofBool s.busy

/-- PV[k] (10_state.md R25). -/
def valid (s : State) (k : Nat) : Bool := s.pv.getLsbD k

/-- PV[k] <- 1 (45_commands.md R170). -/
def setValid (k : Fin 16) (s : State) : State := { s with pv := s.pv ||| (1#16 <<< k.val) }

/-- The STATUS writes of acceptance: BUSY <- 1, DONE <- 0, ERR <- 0, DROP <- 0 (45_commands.md R165). -/
def startStatus (s : State) : State := { s with busy := true, done := false, err := 0#4, drop := false }

/-- The STATUS writes of completion: BUSY <- 0, DONE <- 1; ERR, DROP and PVALID stay (45_commands.md R164). -/
def completeStatus (s : State) : State := { s with busy := false, done := true }

/-- Rejection with a command error: ERR <- e, DONE <- 1, BUSY <- 0, DROP <- 0 and nothing else
(60_exceptions.md R181). -/
def reject (e : CmdError) (s : State) : State :=
  { s with err := errCode e, done := true, busy := false, drop := false }

/-- The drop of a WR.CMD while BUSY: DROP <- 1 and nothing else (60_exceptions.md R187). -/
def dropCommand (s : State) : State := { s with drop := true }

end State

end Sys2Proof.Machine
end

