-- ==== Sys2Proof/Machine/Ops.lean ====
section
/-! DEFINITION. The named operations over DXTE's registers: accessors, the bus responses, CHECK, acceptance,
completion and reset. DXTE has no memory and takes no trap (20_memory.md R40, 60_exceptions.md R180): what it
has instead of an exception is `busError` and `State.reject`, and a machine that goes on after either. -/

namespace Sys2Proof.Machine

namespace State

/-! ### Registers -/

/-- What RD.PIX of slot k returns: PIX[k], or 0 while PV[k] = 0 (10_state.md R25, 45_commands.md R171). -/
def readPix (s : State) (k : Fin 16) : Word := if s.valid k.val then s.pix[k] else 0#32

/-- PIX[k] <- v; PV[k] <- 1 (45_commands.md R170). -/
def writePix (k : Fin 16) (v : Word) (s : State) : State := { s with pix := s.pix.set k v }.setValid k

/-- OUT[i] (45_commands.md R172). -/
def readOut (s : State) (i : Fin 4) : Word := s.out[i]

/-! ### The queue of turns and the bus responses -/

/-- The turns that are left (log 4). -/
def withTurns (ts : List Turn) (s : State) : State := { s with turns := ts }

/-- The bus answers the host; no DXTE state changes (log 5). -/
def reply (r : Reply) (s : State) : State := { s with replies := r :: s.replies }

/-- BusError: the response carries the offset, and "The access has no effect on any DXTE state, STATUS
included" (60_exceptions.md R186). -/
def busError (off : BitVec 8) (s : State) : State := s.reply (.busError off)

/-! ### CHECK, acceptance and completion -/

/-- CHECK(v), the first failing check in the fixed order (60_exceptions.md R188). -/
def check (s : State) (v : Word) : Option CmdError :=
  if v &&& reservedMask ≠ 0#32 then some .reservedBits
  else if cmdMode v = 3#2 then some .reservedMode
  else if !(sizeOk (cmdW v) && sizeOk (cmdH v)) then some .invalidBlockSize
  else if (usedPositions (cmdW v).toNat (cmdH v).toNat).all fun pos => s.valid pos then none
  else some .unwrittenPixel

/-- Acceptance of v: the snapshot of CMD and PIX, and STATUS (45_commands.md R165, 10_state.md R29). -/
def accept (v : Word) (s : State) : State :=
  { s with hidden := { s.hidden with snapCmd := v, snapPix := s.pix } }.startStatus

/-- The checked command: accepted or rejected (45_commands.md R165). -/
def issue (v : Word) (s : State) : State :=
  match s.check v with
  | none => s.accept v
  | some e => s.reject e

/-- CMD <- v, all 32 bits (10_state.md R22). -/
def storeCmd (v : Word) (s : State) : State := { s with cmd := v }

/-- The write of CMD: dropped while BUSY, else stored and then accepted or rejected (45_commands.md R167). -/
def writeCmd (v : Word) (s : State) : State :=
  if s.busy then s.dropCommand else (s.storeCmd v).issue v

/-- Completion with a result (45_commands.md R164): OUT and STATUS; afterwards the hidden state is a free
value, since its value between commands is unspecified (10_state.md R30; log 3). -/
def complete (words : Vector Word 4) (s : State) : State :=
  { s with
    out := words
    hidden := Config.freeHidden s.freeCount
    freeCount := s.freeCount + 1 }.completeStatus

/-- The encoder running a command (45_commands.md R161 to R164): enabled only while BUSY = 1 (00_scope.md R9;
log 9); ENCODE reads the snapshot pixels and starts from whatever the working state holds. A size that
acceptance refuses reaches no output: it is rejected as acceptance would (R184; log 8); no reachable state
holds such a snapshot. -/
def runCommand (mode : Mode) (metric : Metric) (w h : BitVec 3) (pte : Bool) (s : State) : State :=
  if !s.busy then s
  else if sizeOk w && sizeOk h then
    s.complete (outWords
      (encodeBlock s.params ⟨mode, metric, w.toNat, h.toNat, pte⟩ s.hidden.snapPix s.hidden.work))
  else s.reject .invalidBlockSize

/-! ### Reset -/

/-- The reset action (70_reset_and_hazards.md R200): PIX and the hidden state "are not written" (log 14). -/
def platformReset (s : State) : State :=
  { s with
    cmd := 0#32
    busy := false
    done := false
    err := 0#4
    drop := false
    pv := 0#16
    out := Vector.replicate 4 0#32 }

end State

end Sys2Proof.Machine
end

