-- ==== Sys2Proof/Machine/Bus.lean ====
section
/-! DEFINITION. The meanings of the six bus operations (45_commands.md R167 to R172). -/

namespace Sys2Proof.Machine

/-- RD.CMD: `return CMD` (45_commands.md R168). -/
def execRdCmd (s : State) : Host.Outcome State Fault Refusal := .next (s.reply (.data s.cmd))

/-- WR.CMD (45_commands.md R167). -/
def execWrCmd (v : Word) (s : State) : Host.Outcome State Fault Refusal :=
  .next ((s.writeCmd v).reply .written)

/-- RD.STATUS (45_commands.md R169). -/
def execRdStatus (s : State) : Host.Outcome State Fault Refusal := .next (s.reply (.data s.statusWord))

/-- RD.PIX[k] (45_commands.md R171). -/
def execRdPix (k : Fin 16) (s : State) : Host.Outcome State Fault Refusal :=
  .next (s.reply (.data (s.readPix k)))

/-- WR.PIX[k] (45_commands.md R170). -/
def execWrPix (k : Fin 16) (v : Word) (s : State) : Host.Outcome State Fault Refusal :=
  .next ((s.writePix k v).reply .written)

/-- RD.OUT[i] (45_commands.md R172). -/
def execRdOut (i : Fin 4) (s : State) : Host.Outcome State Fault Refusal :=
  .next (s.reply (.data (s.readOut i)))

end Sys2Proof.Machine
end

