-- ==== Sys2Proof/Machine/Enc.lean ====
section
/-! DEFINITION. The meanings of the three encode commands, which the encoder runs from the snapshot
(45_commands.md R161 to R164). Their acceptance checks are WR.CMD's (R165). -/

namespace Sys2Proof.Machine

/-- ENC.DXT1 (45_commands.md R161). -/
def execEncDxt1 (metric : Metric) (w h : BitVec 3) (pte : Bool) (s : State) :
    Host.Outcome State Fault Refusal := .next (s.runCommand .dxt1 metric w h pte)

/-- ENC.DXT3 (45_commands.md R162). -/
def execEncDxt3 (metric : Metric) (w h : BitVec 3) (pte : Bool) (s : State) :
    Host.Outcome State Fault Refusal := .next (s.runCommand .dxt3 metric w h pte)

/-- ENC.DXT5 (45_commands.md R163). -/
def execEncDxt5 (metric : Metric) (w h : BitVec 3) (pte : Bool) (s : State) :
    Host.Outcome State Fault Refusal := .next (s.runCommand .dxt5 metric w h pte)

end Sys2Proof.Machine
end

