-- ==== Sys2Proof/Machine/Dispatch.lean ====
section
/-! DEFINITION. The meaning of every instruction, one arm per constructor of Instr. -/

namespace Sys2Proof.Machine

def exec (i : Instr) (s : State) : Host.Outcome State Fault Refusal :=
  match i with
  | .rdCmd => Sys2Proof.Machine.execRdCmd s
  | .wrCmd v => Sys2Proof.Machine.execWrCmd v s
  | .rdStatus => Sys2Proof.Machine.execRdStatus s
  | .rdPix k => Sys2Proof.Machine.execRdPix k s
  | .wrPix k v => Sys2Proof.Machine.execWrPix k v s
  | .rdOut j => Sys2Proof.Machine.execRdOut j s
  | .encDxt1 metric w h pte => Sys2Proof.Machine.execEncDxt1 metric w h pte s
  | .encDxt3 metric w h pte => Sys2Proof.Machine.execEncDxt3 metric w h pte s
  | .encDxt5 metric w h pte => Sys2Proof.Machine.execEncDxt5 metric w h pte s

end Sys2Proof.Machine
end

