-- ==== Sys2Proof/Machine/Fetch.lean ====
section
/-! DEFINITION. Where a step finds its next instruction. DXTE fetches nothing from a memory (20_memory.md R54):
the host's accesses come from the queue of turns, the encoder's command from the snapshot. -/

namespace Sys2Proof.Machine

/-- What a turn brings: an instruction to run from a state, or a next state with no instruction run. -/
inductive Fetched where
  | run (i : Instr) (s : State)
  | done (s : State)
  deriving DecidableEq, Repr

/-- The decode of an access: the width before the word (20_memory.md R43, 30_encoding.md R61, R62). -/
def decodeAccess (a : Access) : Except BusFault Instr :=
  if a.width = 32 then decodeBus a.bt a.data else .error .width

/-- The host's turn: an access that is a bus operation runs it (20_memory.md R42); any other gets BusError
(45_commands.md R173). -/
def fetchAccess (a : Access) (s : State) : Fetched :=
  match decodeAccess a with
  | .ok i => .run i s
  | .error _ => .done (s.busError a.off)

/-- The encoder's turn: enabled only while BUSY = 1 (00_scope.md R9), it runs the command of the snapshot
(10_state.md R29). A snapshot that is no command is rejected as acceptance would (log 8); no reachable state
holds one. While IDLE the turn passes (log 9). -/
def fetchCommand (s : State) : Fetched :=
  if s.busy then
    match decodeCmd s.hidden.snapCmd with
    | .ok i => .run i s
    | .error e => .done (s.reject e)
  else .done s

/-- The next turn, taken from the front of the queue. With no turn left a BUSY encoder completes and an IDLE
machine waits (70_reset_and_hazards.md R202, R209, R210; log 4). -/
def fetch (s : State) : Fetched :=
  match s.turns with
  | [] => fetchCommand s
  | .access a :: rest => fetchAccess a (s.withTurns rest)
  | .encoder :: rest => fetchCommand (s.withTurns rest)
  | .reset :: rest => .done (s.withTurns rest).platformReset

/-- The state in which the next step runs the bus word `bt` with data 0: the access stands first in the queue. -/
def placeBusWord (bt : BitVec 9) (s : State) : State :=
  s.withTurns (.access ⟨32, bt, 0#32⟩ :: s.turns)

/-- The state in which the next step runs the command word `v`: the snapshot holds it, STATUS is as acceptance
leaves it (45_commands.md R165), and the encoder's turn stands first in the queue (log 10). -/
def placeCommandWord (v : Word) (s : State) : State :=
  { s with
    hidden := { s.hidden with snapCmd := v }
    turns := .encoder :: s.turns }.startStatus

end Sys2Proof.Machine
end

