-- ==== Sys2Proof/Machine/Step.lean ====
section
/-! DEFINITION. One step of DXTE: one turn of one agent (00_scope.md R9, 70_reset_and_hazards.md R210). -/

namespace Sys2Proof.Machine

/-- One turn: the instruction it brings is run; a turn that brings none gives its next state. -/
def step (s : State) : Host.Outcome State Fault Refusal :=
  match fetch s with
  | .run i s' => exec i s'
  | .done s' => .next s'

/-- The state whose next step runs the instruction of an opcode-table word: the BUS rows' 9-bit words (two
bytes) as the host's next access, the CMD rows' 32-bit words as the encoder's command (log 10). -/
def State.withFetchWord (s : State) (nbits w : Nat) : State :=
  if nbits ≤ 16 then placeBusWord (BitVec.ofNat 9 w) s else placeCommandWord (BitVec.ofNat 32 w) s

end Sys2Proof.Machine
end

