-- ==== Sys2Proof/Safety.lean ====
section
/-! DEFINITION. The invariant of DXTE's states, in the terms the statements use. -/

namespace Sys2Proof.Machine

/-- The used positions of a command word (40_sample_collector.md R80). -/
def cmdPositions (v : Word) : List Nat := usedPositions (cmdW v).toNat (cmdH v).toNat

/-- A legal command word: no reserved bit, MODE 0, 1 or 2, W and H in 1..4 (30_encoding.md R70). -/
def LegalCommand (v : Word) : Prop :=
  v &&& reservedMask = 0#32 ∧ cmdMode v ≠ 3#2 ∧ sizeOk (cmdW v) = true ∧ sizeOk (cmdH v) = true

/-- The next turn is a bus access that decodes to i. -/
def State.NextAccess (s : State) (i : Instr) : Prop :=
  ∃ a rest, s.turns = .access a :: rest ∧ decodeAccess a = .ok i

/-- The next turn is the host's. -/
def State.NextIsAccess (s : State) : Prop := ∃ a rest, s.turns = .access a :: rest

/-- The next turn is a reset (70_reset_and_hazards.md R200). -/
def State.NextIsReset (s : State) : Prop := ∃ rest, s.turns = .reset :: rest

/-- The next turn is the encoder's, or no turn is left (log 4). -/
def State.NextIsEncoder (s : State) : Prop := s.turns = [] ∨ ∃ rest, s.turns = .encoder :: rest

/-- An access that is none of the six bus operations: the "any other" row of 30_encoding.md R62 and the widths
of 20_memory.md R43, in offset ranges. -/
def IllegalAccess (a : Access) : Prop :=
  a.width ≠ 32 ∨ a.off.toNat % 4 ≠ 0 ∨
    (busWe a.bt = true ∧ (a.off.toNat = 0x04 ∨ (0x80 ≤ a.off.toNat ∧ a.off.toNat ≤ 0x8C))) ∨
    (0x08 ≤ a.off.toNat ∧ a.off.toNat ≤ 0x3C) ∨ 0x90 ≤ a.off.toNat

/-- What holds of every state DXTE reaches, and rules out states no run reaches. -/
structure State.Inv (s : State) : Prop where
  /-- "(1,1) never occurs" of (BUSY, DONE) (10_state.md R23). -/
  busy_not_done : s.busy = true → s.done = false
  /-- STATUS.ERR holds a code DXTE reports: 5 and above are unreachable (60_exceptions.md R181, R195). -/
  err_known : s.err.toNat ≤ 4
  /-- A command error has ended its command (60_exceptions.md R181). -/
  err_done : s.err ≠ 0#4 → s.done = true ∧ s.drop = false
  /-- DROP stands only while the command that caused the drop runs or is the last one (60_exceptions.md R187). -/
  drop_cmd : s.drop = true → s.busy = true ∨ s.done = true
  /-- While BUSY the snapshot is CMD: only a non-dropped WR.CMD writes either (10_state.md R22, R29). -/
  snap_cmd : s.busy = true → s.hidden.snapCmd = s.cmd
  /-- While BUSY the command is legal (45_commands.md R165). -/
  snap_legal : s.busy = true → LegalCommand s.hidden.snapCmd
  /-- While BUSY every used slot is valid (60_exceptions.md R185; PV is cleared only by reset, 10_state.md R25). -/
  snap_valid : s.busy = true → ∀ pos ∈ cmdPositions s.hidden.snapCmd, s.valid pos = true
  /-- (BUSY, DONE) = (0,0) is the state after reset, before any command (10_state.md R23). -/
  fresh : s.busy = false → s.done = false →
    s.cmd = 0#32 ∧ s.err = 0#4 ∧ s.drop = false ∧ s.out = Vector.replicate 4 0#32

end Sys2Proof.Machine
end

