-- ==== Sys2Proof/Certificates/Slice0/Obligations.lean ====
section
/-! DEFINITION. The statements about DXTE for the provers. Where a next state is given as an update of s by
record syntax, every field not named in the update is unchanged: that is the frame. A hidden state or free
counter under an existential is the free value of log 3, about which nothing is stated. -/

open Sys2Proof Sys2Proof.Machine

/-! ### Bus operations -/

/-- 45_commands.md R168: RD.CMD returns CMD, writes no flag, errs only on a non-32-bit access, returns the last
word a non-dropped WR.CMD stored, and 0 after reset. -/
def Obligations.ReadCmdReturnsLastStoredWord : Prop :=
  (∀ s : State, exec .rdCmd s = .next { s with replies := .data s.cmd :: s.replies }) ∧
  (∀ (s : State) (rest : List Turn) (width : Nat) (data : Word),
    step { s with turns := .access ⟨width, 0x000#9, data⟩ :: rest } =
      .next { s with
        turns := rest
        replies := (if width = 32 then .data s.cmd else .busError 0x00#8) :: s.replies }) ∧
  (∀ (s : State) (v : Word), s.busy = false → ∃ t u, exec (.wrCmd v) s = .next t ∧
    exec .rdCmd t = .next u ∧ u.replies = .data v :: .written :: s.replies) ∧
  State.reset.cmd = 0#32

/-- 45_commands.md R169: RD.STATUS returns {PV, 0, DROP, ERR, 0, DONE, BUSY}, field by field, changes nothing,
and errs only on a non-32-bit access; 0 after reset; BUSY with PVALID = 0 and nothing else is never read. -/
def Obligations.ReadStatusReturnsFieldsWithoutClearing : Prop :=
  (∀ s : State, ∃ v : Word, exec .rdStatus s = .next { s with replies := .data v :: s.replies } ∧
    v.getLsbD 0 = s.busy ∧ v.getLsbD 1 = s.done ∧ v.extractLsb' 2 2 = 0#2 ∧ v.extractLsb' 4 4 = s.err ∧
    v.getLsbD 8 = s.drop ∧ v.extractLsb' 9 7 = 0#7 ∧ v.extractLsb' 16 16 = s.pv ∧
    (s.Inv → v ≠ 0x00000001#32)) ∧
  (∀ (s : State) (rest : List Turn) (width : Nat) (data : Word),
    step { s with turns := .access ⟨width, 0x004#9, data⟩ :: rest } =
      .next { s with
        turns := rest
        replies := (if width = 32 then .data s.statusWord else .busError 0x04#8) :: s.replies }) ∧
  State.reset.statusWord = 0x00000000#32

/-- 45_commands.md R170: WR.PIX[k] stores the word, sets PV[k] and no other flag, whether BUSY or not, and
leaves the snapshot of the running encode; BusError only for a non-32-bit access. -/
def Obligations.WritePixStoresWordAndSetsValid : Prop :=
  (∀ (s : State) (k : Fin 16) (v : Word), ∃ pv', exec (.wrPix k v) s =
      .next { s with pix := s.pix.set k v, pv := pv', replies := .written :: s.replies } ∧
    ∀ j : Fin 16, pv'.getLsbD j.val = (decide (j = k) || s.pv.getLsbD j.val)) ∧
  (∀ (s : State) (rest : List Turn) (width : Nat) (k : Fin 16) (v : Word),
    step { s with turns := .access ⟨width, 0x140#9 + BitVec.ofNat 9 (4 * k.val), v⟩ :: rest } =
      if width = 32 then exec (.wrPix k v) { s with turns := rest }
      else .next { s with
        turns := rest
        replies := .busError (0x40#8 + BitVec.ofNat 8 (4 * k.val)) :: s.replies })

/-- 45_commands.md R171: RD.PIX[k] returns PIX[k] if PV[k] = 1 and 0 if not (so 0 after reset), the host's last
written value, and errs only on a non-32-bit access. -/
def Obligations.ReadPixReturnsWordOrZero : Prop :=
  (∀ (s : State) (k : Fin 16), exec (.rdPix k) s = .next { s with
      replies := .data (if s.pv.getLsbD k.val then s.pix[k] else 0x00000000#32) :: s.replies }) ∧
  (∀ (s : State) (k : Fin 16) (v : Word), ∃ t u, exec (.wrPix k v) s = .next t ∧
    exec (.rdPix k) t = .next u ∧ u.replies = .data v :: .written :: s.replies) ∧
  (∀ (s : State) (rest : List Turn) (width : Nat) (k : Fin 16) (data : Word),
    step { s with turns := .access ⟨width, 0x040#9 + BitVec.ofNat 9 (4 * k.val), data⟩ :: rest } =
      if width = 32 then exec (.rdPix k) { s with turns := rest }
      else .next { s with
        turns := rest
        replies := .busError (0x40#8 + BitVec.ofNat 8 (4 * k.val)) :: s.replies }) ∧
  State.reset.pv = 0#16

/-- 45_commands.md R172: RD.OUT[i] returns OUT[i] and changes nothing; a dropped or rejected command leaves OUT;
after a DXT1 command OUT[2] and OUT[3] are 0; BusError only for a non-32-bit access. -/
def Obligations.ReadOutReturnsLastResult : Prop :=
  (∀ (s : State) (i : Fin 4), exec (.rdOut i) s = .next { s with replies := .data s.out[i] :: s.replies }) ∧
  (∀ (s : State) (rest : List Turn) (width : Nat) (i : Fin 4) (data : Word),
    step { s with turns := .access ⟨width, 0x080#9 + BitVec.ofNat 9 (4 * i.val), data⟩ :: rest } =
      if width = 32 then exec (.rdOut i) { s with turns := rest }
      else .next { s with
        turns := rest
        replies := .busError (0x80#8 + BitVec.ofNat 8 (4 * i.val)) :: s.replies }) ∧
  (∀ (s : State) (v : Word), ∃ t, exec (.wrCmd v) s = .next t ∧ t.out = s.out) ∧
  (∀ (s : State) (metric : Metric) (w h : BitVec 3) (pte : Bool), s.busy = true → sizeOk w = true →
    sizeOk h = true → ∃ t, exec (.encDxt1 metric w h pte) s = .next t ∧ t.out[2] = 0#32 ∧ t.out[3] = 0#32)

/-- 20_memory.md R49: the four reads have no side effect, and a second read returns the same value. -/
def Obligations.ReadsHaveNoSideEffect : Prop :=
  ∀ (i : Instr), (i = .rdCmd ∨ i = .rdStatus ∨ (∃ k, i = .rdPix k) ∨ ∃ j, i = .rdOut j) →
    ∀ s : State, ∃ v : Word, exec i s = .next { s with replies := .data v :: s.replies } ∧
      exec i { s with replies := .data v :: s.replies } =
        .next { s with replies := .data v :: .data v :: s.replies }

/-! ### WR.CMD: acceptance, rejection, drop -/

/-- 45_commands.md R165: a word that passes CHECK while idle is accepted: CMD, the snapshot of CMD and PIX, and
STATUS; everything else is unchanged. -/
def Obligations.WriteCmdAcceptsCheckedWord : Prop :=
  ∀ (s : State) (v : Word), s.busy = false → s.check v = none →
    exec (.wrCmd v) s = .next { s with
      cmd := v
      hidden := ⟨v, s.pix, s.hidden.work⟩
      busy := true
      done := false
      err := 0#4
      drop := false
      replies := .written :: s.replies }

/-- 60_exceptions.md R181, R189: a word that fails CHECK while idle is rejected with its code: ERR, DONE, BUSY
and DROP besides CMD, and nothing else. -/
def Obligations.WriteCmdRejectsWithErrorCode : Prop :=
  (∀ (s : State) (v : Word) (e : CmdError), s.busy = false → s.check v = some e →
    exec (.wrCmd v) s = .next { s with
      cmd := v
      err := errCode e
      done := true
      busy := false
      drop := false
      replies := .written :: s.replies }) ∧
  errCode .invalidBlockSize = 1#4 ∧ errCode .reservedMode = 2#4 ∧ errCode .reservedBits = 3#4 ∧
    errCode .unwrittenPixel = 4#4

/-- 60_exceptions.md R187: a WR.CMD while BUSY changes DROP only, the access succeeds, and DROP stays 1 until
the next non-dropped WR.CMD or reset. -/
def Obligations.WriteCmdWhileBusyIsDropped : Prop :=
  (∀ (s : State) (v : Word), s.busy = true →
    exec (.wrCmd v) s = .next { s with drop := true, replies := .written :: s.replies }) ∧
  (∀ s t : State, s.Inv → step s = .next t → s.drop = true → t.drop = false →
    s.NextIsReset ∨ s.busy = false ∧ ∃ v, s.NextAccess (.wrCmd v))

/-- 60_exceptions.md R188: CHECK reports the first failing check in the order reserved bits, MODE, size, unwritten
pixel; the checks are written out on the bits and the numbers of the word. -/
def Obligations.CheckReportsFirstFailingCheck : Prop :=
  ∀ (s : State) (v : Word),
    let reserved := v.getLsbD 7 = true ∨ v.getLsbD 11 = true ∨ ∃ b, 13 ≤ b ∧ b < 32 ∧ v.getLsbD b = true
    let mode := v.toNat % 4
    let w := v.toNat / 16 % 8
    let h := v.toNat / 256 % 8
    let badSize := ¬ (1 ≤ w ∧ w ≤ 4) ∨ ¬ (1 ≤ h ∧ h ≤ 4)
    let unwritten := ∃ x y, x < w ∧ y < h ∧ s.pv.getLsbD (x + 4 * y) = false
    (s.check v = some .reservedBits ↔ reserved) ∧
    (s.check v = some .reservedMode ↔ ¬ reserved ∧ mode = 3) ∧
    (s.check v = some .invalidBlockSize ↔ ¬ reserved ∧ mode ≠ 3 ∧ badSize) ∧
    (s.check v = some .unwrittenPixel ↔ ¬ reserved ∧ mode ≠ 3 ∧ ¬ badSize ∧ unwritten) ∧
    (s.check v = none ↔ ¬ reserved ∧ mode ≠ 3 ∧ ¬ badSize ∧ ¬ unwritten)

/-- 70_reset_and_hazards.md R207: right after a non-dropped WR.CMD, STATUS shows either BUSY with DONE cleared, or
DONE with an error code: never a DONE of an earlier command. -/
def Obligations.NoStaleDoneAfterWriteCmd : Prop :=
  ∀ (s : State) (v : Word), s.busy = false → ∃ t, exec (.wrCmd v) s = .next t ∧
    (t.busy = true ∧ t.done = false ∧ t.err = 0#4 ∨ t.busy = false ∧ t.done = true ∧ t.err ≠ 0#4)

/-! ### The encode commands complete -/

/-- 45_commands.md R161, R164, R174: while BUSY, a legal ENC.DXT1 completes: OUT holds bytes 0 to 7 of OB
little-endian and 0 in words 2 and 3; BUSY 0, DONE 1; every other field but the hidden state (log 3) unchanged. -/
def Obligations.EncDxt1CompletesWithEightBytes : Prop :=
  ∀ (s : State) (metric : Metric) (w h : BitVec 3) (pte : Bool), s.busy = true → sizeOk w = true →
    sizeOk h = true → ∃ (ws : Vector Word 4) (hid : Hidden) (fc : Nat),
      exec (.encDxt1 metric w h pte) s =
        .next { s with busy := false, done := true, out := ws, hidden := hid, freeCount := fc } ∧
      ∀ (i : Fin 4) (j : Nat), j < 4 → ws[i].extractLsb' (8 * j) 8 =
        if 4 * i.val + j < 8 then
          entry (encodeWork s.params ⟨.dxt1, metric, w.toNat, h.toNat, pte⟩ s.hidden.snapPix s.hidden.work).ob
            (4 * i.val + j)
        else 0#8

/-- 45_commands.md R162, R164, R174: while BUSY, a legal ENC.DXT3 completes: OUT holds the 16 bytes of OB
little-endian; BUSY 0, DONE 1; every other field but the hidden state (log 3) unchanged. -/
def Obligations.EncDxt3CompletesWithSixteenBytes : Prop :=
  ∀ (s : State) (metric : Metric) (w h : BitVec 3) (pte : Bool), s.busy = true → sizeOk w = true →
    sizeOk h = true → ∃ (ws : Vector Word 4) (hid : Hidden) (fc : Nat),
      exec (.encDxt3 metric w h pte) s =
        .next { s with busy := false, done := true, out := ws, hidden := hid, freeCount := fc } ∧
      ∀ (i : Fin 4) (j : Nat), j < 4 → ws[i].extractLsb' (8 * j) 8 =
        entry (encodeWork s.params ⟨.dxt3, metric, w.toNat, h.toNat, pte⟩ s.hidden.snapPix s.hidden.work).ob
          (4 * i.val + j)

/-- 45_commands.md R163, R164, R174: while BUSY, a legal ENC.DXT5 completes: OUT holds the 16 bytes of OB
little-endian; BUSY 0, DONE 1; every other field but the hidden state (log 3) unchanged. -/
def Obligations.EncDxt5CompletesWithSixteenBytes : Prop :=
  ∀ (s : State) (metric : Metric) (w h : BitVec 3) (pte : Bool), s.busy = true → sizeOk w = true →
    sizeOk h = true → ∃ (ws : Vector Word 4) (hid : Hidden) (fc : Nat),
      exec (.encDxt5 metric w h pte) s =
        .next { s with busy := false, done := true, out := ws, hidden := hid, freeCount := fc } ∧
      ∀ (i : Fin 4) (j : Nat), j < 4 → ws[i].extractLsb' (8 * j) 8 =
        entry (encodeWork s.params ⟨.dxt5, metric, w.toNat, h.toNat, pte⟩ s.hidden.snapPix s.hidden.work).ob
          (4 * i.val + j)

/-- 00_scope.md R9 and log 8: an encode command has no effect while IDLE (its step is not enabled), and one of an
illegal size, which no reachable snapshot holds, gives no output but the rejection of R184. -/
def Obligations.EncCommandsOutsideTheirEnable : Prop :=
  ∀ (s : State) (metric : Metric) (w h : BitVec 3) (pte : Bool) (i : Instr),
    (i = .encDxt1 metric w h pte ∨ i = .encDxt3 metric w h pte ∨ i = .encDxt5 metric w h pte) →
    (s.busy = false → exec i s = .next s) ∧
    (s.busy = true → i.wf = false → exec i s =
      .next { s with err := 1#4, done := true, busy := false, drop := false })

/-! ### The encode function: distances -/

/-- 41_distance_metrics.md R90: SHRR is the floor of (x + 2^(n-1)) / 2^n, for negative x too; with R90's examples. -/
def Obligations.RoundingShiftIsFloorOfHalfAdded : Prop :=
  (∀ (x : Int) (n : Config.ShiftCount),
    2 ^ n.val * shrr x n ≤ x + 2 ^ (n.val - 1) ∧ x + 2 ^ (n.val - 1) < 2 ^ n.val * (shrr x n + 1)) ∧
  (∀ n : Config.ShiftCount, (n.val = 1 → shrr 5 n = 3) ∧ (n.val = 3 → shrr (-5) n = -1 ∧ shrr (-4) n = 0) ∧
    (n.val = 4 → shrr 12 n = 1))

/-- 41_distance_metrics.md R92, R93, R94: AVG, YUV and RGB are the sums of their rules for every parameter value, with
the worked examples under the default ones; they are symmetric and never negative; AVG is at most 195075 = 3*255^2,
reached at black against white. -/
def Obligations.AvgAndLumaDistancesSymmetric : Prop :=
  (∀ (p : Config.Params) (a b : Color),
    let dr := (a.r.toNat : Int) - b.r.toNat
    let dg := (a.g.toNat : Int) - b.g.toNat
    let db := (a.b.toNat : Int) - b.b.toNat
    let luma := fun (w : Config.Weights) =>
      let y := dr * w.wr + dg * w.wg + db * w.wb
      2 * y ^ 2 + ((dr * 202 - y) ^ 2 + 4) / 8 + ((db * 202 - y) ^ 2 + 8) / 16
    dist p .avg a b = dr ^ 2 + dg ^ 2 + db ^ 2 ∧ dist p .yuv a b = luma p.wyYuv ∧ dist p .rgb a b = luma p.wyRgb) ∧
  dist Config.defaults .avg ⟨10#8, 20#8, 30#8⟩ ⟨13#8, 16#8, 30#8⟩ = 25 ∧
  dist Config.defaults .yuv ⟨10#8, 20#8, 30#8⟩ ⟨13#8, 16#8, 30#8⟩ = 61249 ∧
  dist Config.defaults .rgb ⟨10#8, 20#8, 30#8⟩ ⟨13#8, 16#8, 30#8⟩ = 127856 ∧
  (∀ (p : Config.Params) (m : Metric) (a b : Color), m ≠ .srgb →
    dist p m a b = dist p m b a ∧ 0 ≤ dist p m a b) ∧
  (∀ a b : Color, distAvg a b ≤ 195075) ∧
  distAvg ⟨0#8, 0#8, 0#8⟩ ⟨255#8, 255#8, 255#8⟩ = 195075

/-- 41_distance_metrics.md R95, R98: SRGB is the sum of its rule for every parameter value, with the worked example
under the default ones (3, and 2 in the other argument order); with those it is never negative and is NOT symmetric. -/
def Obligations.SrgbDistanceNonNegativeNotSymmetric : Prop :=
  (∀ (p : Config.Params) (a b : Color),
    let dr := (a.r.toNat : Int) ^ 2 - (b.r.toNat : Int) ^ 2
    let dg := (a.g.toNat : Int) ^ 2 - (b.g.toNat : Int) ^ 2
    let db := (a.b.toNat : Int) ^ 2 - (b.b.toNat : Int) ^ 2
    let y := dr * p.wySrgb.wr + dg * p.wySrgb.wg + db * p.wySrgb.wb
    let pre := fun t : Int => shrr t p.srgbPre.p1 * shrr t p.srgbPre.p2
    dist p .srgb a b = shrr (pre y) p.srgbPost.q1 + shrr (pre (dr * p.kSrgb - y)) p.srgbPost.q2 +
      shrr (pre (db * p.kSrgb - y)) p.srgbPost.q3) ∧
  dist Config.defaults .srgb ⟨0#8, 0#8, 1#8⟩ ⟨0#8, 0#8, 0#8⟩ = 3 ∧
  dist Config.defaults .srgb ⟨0#8, 0#8, 0#8⟩ ⟨0#8, 0#8, 1#8⟩ = 2 ∧
  (∀ a b : Color, 0 ≤ distSrgb Config.defaults a b) ∧
  ∃ a b : Color, distSrgb Config.defaults a b ≠ distSrgb Config.defaults b a

/-- 41_distance_metrics.md R99: "Every metric gives 0 for two equal colours, and, with the default parameters, a
value > 0 for two different colours". -/
def Obligations.DistancesSeparateColours : Prop :=
  (∀ (p : Config.Params) (m : Metric) (a : Color), dist p m a a = 0) ∧
  (∀ (m : Metric) (a b : Color), a ≠ b → 0 < dist Config.defaults m a b)

/-- 41_distance_metrics.md R97: with the default parameters every pair cost of the colour reducer lies in
[0, 2^41). -/
def Obligations.PairCostsFitFortyOneBits : Prop :=
  ∀ (m : Metric) (c : Vector Color 16) (old : Matrix16) (n i j : Nat), n ≤ 16 → i < n → j < n →
    0 ≤ colorCost (fillMatrix n (fun x y => dist Config.defaults m (entry c x) (entry c y)) old) n i j ∧
    colorCost (fillMatrix n (fun x y => dist Config.defaults m (entry c x) (entry c y)) old) n i j < 2 ^ 41

/-- 41_distance_metrics.md R96: DIST_ALPHA is the squared difference, symmetric, 0 iff equal, at most 65025. -/
def Obligations.AlphaDistanceIsSquaredDifference : Prop :=
  (∀ a b : Byte, distAlpha a b = ((a.toNat : Int) - b.toNat) ^ 2 ∧ distAlpha a b = distAlpha b a ∧
    (distAlpha a b = 0 ↔ a = b) ∧ distAlpha a b ≤ 65025) ∧
  distAlpha 0#8 255#8 = 65025

/-! ### The encode function: collector and reducers -/

/-- 40_sample_collector.md R80, R82: for every legal size the samples, numbered row-major, stand at the used
positions x + 4*y in their order, each once. -/
def Obligations.SamplesNumberUsedPositionsRowMajor : Prop :=
  ∀ w h : Nat, 1 ≤ w → w ≤ 4 → 1 ≤ h → h ≤ 4 →
    (List.range (w * h)).map (samplePos w) = usedPositions w h ∧ (usedPositions w h).Nodup ∧
    ∀ pos, pos ∈ usedPositions w h ↔ ∃ x y, x < w ∧ y < h ∧ pos = x + 4 * y

/-- 40_sample_collector.md R83: COLLECT writes C[k] and A[k] for k < n from the pixel at the sample's position,
and no other part of the working state. -/
def Obligations.CollectGathersClippedBlock : Prop :=
  ∀ (w h : Nat) (pix : Vector Word 16) (wk : Work), 1 ≤ w → w ≤ 4 → 1 ≤ h → h ≤ 4 →
    ∃ c a, collect w h pix wk = { wk with c := c, a := a } ∧
      ∀ k : Nat, k < 16 →
        (k < w * h → ∃ px, pix[k % w + 4 * (k / w)]? = some px ∧
          entry c k = ⟨px.extractLsb' 0 8, px.extractLsb' 8 8, px.extractLsb' 16 8⟩ ∧
          entry a k = px.extractLsb' 24 8) ∧
        (¬ k < w * h → entry c k = entry wk.c k ∧ entry a k = entry wk.a k)

/-- 42_color_reducer.md R111: the cost of a pair is the sum of the minima, and is symmetric in the pair. -/
def Obligations.ColorPairCostIsSymmetricSumOfMinima : Prop :=
  ∀ (d : Matrix16) (n i j : Nat),
    colorCost d n i j = ∑ k ∈ Finset.range n, min (matrixAt d i k) (matrixAt d j k) ∧
    colorCost d n i j = colorCost d n j i

/-- 42_color_reducer.md R112: the pairs i < j are visited in increasing lexicographic order, each once, and the
search selects a pair of least cost, the first one in that order, whatever the costs are. -/
def Obligations.SearchSelectsFirstLeastCostPair : Prop :=
  ∀ n : Nat, 2 ≤ n →
    (pairs n).Pairwise (fun a b => a.1 < b.1 ∨ a.1 = b.1 ∧ a.2 < b.2) ∧
    (∀ a, a ∈ pairs n ↔ a.1 < a.2 ∧ a.2 < n) ∧
    ∀ cost : Nat → Nat → Int,
      let b := search n cost
      b.i < b.j ∧ b.j < n ∧ b.cost = cost b.i b.j ∧
      ∀ i j, i < j → j < n → b.cost ≤ cost i j ∧ (i < b.i ∨ i = b.i ∧ j < b.j → b.cost < cost i j)

/-- 42_color_reducer.md R115 (with R110, R111, R113, R114): REDUCE_COLOR's endpoints are the samples of the first
pair of least cost, the cost taken over DIST(C[i], C[k]) in that argument order; with one sample it is both. -/
def Obligations.ColorReducerPicksFirstLeastPair : Prop :=
  ∀ (p : Config.Params) (m : Metric) (wk : Work),
    ((reduceColor p m 1 wk).color0 = entry wk.c 0 ∧ (reduceColor p m 1 wk).color1 = entry wk.c 0) ∧
    ∀ n : Nat, 2 ≤ n → n ≤ 16 →
      let S := fun i j : Nat => ∑ k ∈ Finset.range n,
        min (dist p m (entry wk.c i) (entry wk.c k)) (dist p m (entry wk.c j) (entry wk.c k))
      ∃ i j, i < j ∧ j < n ∧ (reduceColor p m n wk).color0 = entry wk.c i ∧
        (reduceColor p m n wk).color1 = entry wk.c j ∧
        ∀ i' j', i' < j' → j' < n → S i j ≤ S i' j' ∧ (i' < i ∨ i' = i ∧ j' < j → S i j < S i' j')

/-- 42_color_reducer.md R116: a block of exactly two colours gets exactly those two as endpoints under every metric
with the default parameters; a uniform block gets its colour twice. -/
def Obligations.TwoColourBlockKeepsItsColours : Prop :=
  (∀ (m : Metric) (n : Nat) (wk : Work) (a b : Color), n ≤ 16 → a ≠ b →
    (∀ k, k < n → entry wk.c k = a ∨ entry wk.c k = b) →
    (∃ k, k < n ∧ entry wk.c k = a) → (∃ k, k < n ∧ entry wk.c k = b) →
    let r := reduceColor Config.defaults m n wk
    r.color0 = a ∧ r.color1 = b ∨ r.color0 = b ∧ r.color1 = a) ∧
  (∀ (p : Config.Params) (m : Metric) (n : Nat) (wk : Work) (a : Color), 1 ≤ n → n ≤ 16 →
    (∀ k, k < n → entry wk.c k = a) →
    (reduceColor p m n wk).color0 = a ∧ (reduceColor p m n wk).color1 = a)

/-- 43_alpha_reducer.md R121, R122, R124: REDUCE_ALPHA's endpoints are the alphas of the first pair of least cost,
the cost counting the virtual candidates 0 and 255, ordered ascending; with one sample it is both (R123). -/
def Obligations.AlphaReducerPicksFirstLeastPairAscending : Prop :=
  ∀ wk : Work,
    ((reduceAlpha 1 wk).alpha0 = entry wk.a 0 ∧ (reduceAlpha 1 wk).alpha1 = entry wk.a 0) ∧
    ∀ n : Nat, 2 ≤ n → n ≤ 16 →
      let S := fun i j : Nat => ∑ k ∈ Finset.range n,
        min (min (distAlpha (entry wk.a i) (entry wk.a k)) (distAlpha (entry wk.a j) (entry wk.a k)))
          (min (distAlpha 0#8 (entry wk.a k)) (distAlpha 255#8 (entry wk.a k)))
      let r := reduceAlpha n wk
      r.alpha0.toNat ≤ r.alpha1.toNat ∧
      ∃ i j, i < j ∧ j < n ∧
        (r.alpha0 = entry wk.a i ∧ r.alpha1 = entry wk.a j ∨ r.alpha0 = entry wk.a j ∧ r.alpha1 = entry wk.a i) ∧
        ∀ i' j', i' < j' → j' < n → S i j ≤ S i' j' ∧ (i' < i ∨ i' = i ∧ j' < j → S i j < S i' j')

/-- 43_alpha_reducer.md R126: the two reducers may run in either order with the same result; the alpha reducer
writes nothing the colour reducer reads or writes. -/
def Obligations.ReducersCommute : Prop :=
  ∀ (p : Config.Params) (m : Metric) (n : Nat) (wk : Work),
    reduceColor p m n (reduceAlpha n wk) = reduceAlpha n (reduceColor p m n wk) ∧
    ∃ ad a0 a1, reduceAlpha n wk = { wk with ad := ad, alpha0 := a0, alpha1 := a1 }

/-! ### The encode function: packer -/

/-- 44_block_packer.md R130: lexless compares R, then G, then B of the 8-bit components, which is the unsigned
comparison of the 24-bit concatenations. -/
def Obligations.LexlessComparesConcatenations : Prop :=
  ∀ a b : Color,
    (lexless a b = true ↔
      a.r.toNat < b.r.toNat ∨ a.r = b.r ∧ (a.g.toNat < b.g.toNat ∨ a.g = b.g ∧ a.b.toNat < b.b.toNat)) ∧
    (lexless a b = true ↔ (a.r ++ a.g ++ a.b : BitVec 24).toNat < (b.r ++ b.g ++ b.b : BitVec 24).toNat)

/-- 44_block_packer.md R131: CANON swaps iff lexless, touches only the two endpoints, and leaves color0 not lexless
color1; the packed order can still be reversed (R131's example). -/
def Obligations.CanonOrdersEightBitEndpoints : Prop :=
  (∀ wk : Work,
    (lexless wk.color0 wk.color1 = true → canon wk = { wk with color0 := wk.color1, color1 := wk.color0 }) ∧
    (lexless wk.color0 wk.color1 = false → canon wk = wk) ∧
    lexless (canon wk).color0 (canon wk).color1 = false) ∧
  lexless ⟨9#8, 0#8, 0#8⟩ ⟨8#8, 255#8, 0#8⟩ = false ∧
  pack565 ⟨9#8, 0#8, 0#8⟩ = 0x0800#16 ∧ pack565 ⟨8#8, 255#8, 0#8⟩ = 0x0FE0#16

/-- 44_block_packer.md R133: PACK565 is (r >> 3) << 11 | (g >> 2) << 5 | (b >> 3). -/
def Obligations.Pack565TakesTopBits : Prop :=
  (∀ c : Color, (pack565 c).toNat = c.r.toNat / 8 * 2048 + c.g.toNat / 4 * 32 + c.b.toNat / 8) ∧
  pack565 ⟨0#8, 0#8, 0#8⟩ = 0x0000#16 ∧ pack565 ⟨7#8, 3#8, 7#8⟩ = 0x0000#16 ∧
  pack565 ⟨255#8, 255#8, 255#8⟩ = 0xFFFF#16 ∧ pack565 ⟨128#8, 64#8, 32#8⟩ = 0x8204#16

/-- 44_block_packer.md R134, R138: WRITE16LE stores low byte then high byte and no other; SETBIT sets its stream
bit and no other bit of the buffer; a code's bit e lands at stream bit L*pos + e. -/
def Obligations.BitPackerWritesExactlyItsBits : Prop :=
  (∀ (ob : Vector Byte 16) (b k : Nat) (v : BitVec 16), b + 1 < 16 → k < 16 →
    entry (write16le ob b v) k =
      if k = b then v.extractLsb' 0 8 else if k = b + 1 then v.extractLsb' 8 8 else entry ob k) ∧
  (∀ (ob : Vector Byte 16) (base t k e : Nat), base + t / 8 < 16 → k < 16 → e < 8 →
    (entry (setBit base t ob) k).getLsbD e =
      (decide (k = base + t / 8 ∧ e = t % 8) || (entry ob k).getLsbD e)) ∧
  (∀ (L : Nat) (ob : Vector Byte 16) (base pos k e : Nat) (c : BitVec L),
    base + (L * pos + (L - 1)) / 8 < 16 → k < 16 → e < 8 →
    (entry (writeCode base pos c ob) k).getLsbD e =
      ((entry ob k).getLsbD e ||
        decide (8 * base + L * pos ≤ 8 * k + e) && c.getLsbD (8 * k + e - (8 * base + L * pos))))

/-- 44_block_packer.md R143, R145, R146: Q4 drops the low four bits; ACODE takes the least distance and, among equal
ones, endpoint 1 (code 1), then 255 (code 7), then endpoint 0 (code 0), then 0 (code 6); no other code occurs. -/
def Obligations.AlphaCodesTakeLeastDistanceByPriority : Prop :=
  (∀ pa : Byte, (q4 pa).toNat = pa.toNat / 16) ∧
  ∀ a0 a1 pa : Byte,
    let d0 := distAlpha a0 pa
    let d1 := distAlpha a1 pa
    let dz := distAlpha 0#8 pa
    let df := distAlpha 255#8 pa
    (acode a0 a1 pa = 1#3 ↔ d1 ≤ df ∧ d1 ≤ d0 ∧ d1 ≤ dz) ∧
    (acode a0 a1 pa = 7#3 ↔ df < d1 ∧ df ≤ d0 ∧ df ≤ dz) ∧
    (acode a0 a1 pa = 0#3 ↔ d0 < d1 ∧ d0 < df ∧ d0 ≤ dz) ∧
    (acode a0 a1 pa = 6#3 ↔ dz < d1 ∧ dz < df ∧ dz < d0)

/-- 44_block_packer.md R140, R141: the colour code is 1 iff the pixel is strictly closer to color1, else 0; in DXT1
with PTE = 1 a pixel of alpha exactly 0 gets 3. -/
def Obligations.ColourCodeTakesCloserEndpoint : Prop :=
  ∀ (p : Config.Params) (o : Operands) (wk : Work) (px : Word),
    let pc : Color := ⟨px.extractLsb' 0 8, px.extractLsb' 8 8, px.extractLsb' 16 8⟩
    colorCode p o wk px =
      if o.mode = .dxt1 ∧ o.pte = true ∧ px.toNat / 2 ^ 24 = 0 then 3#2
      else if dist p o.metric wk.color1 pc < dist p o.metric wk.color0 pc then 1#2 else 0#2

/-- 44_block_packer.md R135, R136, R137 with R149, and 45_commands.md R160: the endpoint bytes of the finished block, for
every mode and legal size, and which endpoints they are. color0 and color1 are the first least-cost pair of the W*H
samples under the command's metric, in canonical order (42_color_reducer.md R111 to R115, R131); in DXT5 alpha0 and
alpha1 are the first least-cost pair of the alphas, ascending (43_alpha_reducer.md R121 to R125); one sample is both. -/
def Obligations.EndpointBytesOfFinishedBlock : Prop :=
  ∀ (p : Config.Params) (o : Operands) (pix : Vector Word 16) (wk : Work),
    1 ≤ o.w → o.w ≤ 4 → 1 ≤ o.h → o.h ≤ 4 →
    let f := encodeWork p o pix wk
    let cb := if o.mode = .dxt1 then 0 else 8
    entry f.ob cb = (pack565 f.color0).extractLsb' 0 8 ∧
    entry f.ob (cb + 1) = (pack565 f.color0).extractLsb' 8 8 ∧
    entry f.ob (cb + 2) = (pack565 f.color1).extractLsb' 0 8 ∧
    entry f.ob (cb + 3) = (pack565 f.color1).extractLsb' 8 8 ∧
    (o.mode = .dxt5 → entry f.ob 0 = f.alpha0 ∧ entry f.ob 1 = f.alpha1) ∧
    let n := o.w * o.h
    let c := fun k : Nat => pixelColor (entry pix (k % o.w + 4 * (k / o.w)))
    let a := fun k : Nat => pixelAlpha (entry pix (k % o.w + 4 * (k / o.w)))
    let S := fun i j : Nat => ∑ k ∈ Finset.range n, min (dist p o.metric (c i) (c k)) (dist p o.metric (c j) (c k))
    let SA := fun i j : Nat => ∑ k ∈ Finset.range n,
      min (min (distAlpha (a i) (a k)) (distAlpha (a j) (a k))) (min (distAlpha 0#8 (a k)) (distAlpha 255#8 (a k)))
    (n = 1 → f.color0 = c 0 ∧ f.color1 = c 0 ∧ (o.mode = .dxt5 → f.alpha0 = a 0 ∧ f.alpha1 = a 0)) ∧
    (2 ≤ n →
      (∃ i j, i < j ∧ j < n ∧
        (∀ i' j', i' < j' → j' < n → S i j ≤ S i' j' ∧ (i' < i ∨ i' = i ∧ j' < j → S i j < S i' j')) ∧
        (lexless (c i) (c j) = false → f.color0 = c i ∧ f.color1 = c j) ∧
        (lexless (c i) (c j) = true → f.color0 = c j ∧ f.color1 = c i)) ∧
      (o.mode = .dxt5 → ∃ i j, i < j ∧ j < n ∧
        (∀ i' j', i' < j' → j' < n → SA i j ≤ SA i' j' ∧ (i' < i ∨ i' = i ∧ j' < j → SA i j < SA i' j')) ∧
        ((a i).toNat ≤ (a j).toNat → f.alpha0 = a i ∧ f.alpha1 = a j) ∧
        ((a j).toNat < (a i).toNat → f.alpha0 = a j ∧ f.alpha1 = a i)))

/-- 44_block_packer.md R142, R148: in the finished block of every mode and legal size, position pos holds its colour
code at bits 2*pos, 2*pos+1 of the field at byte 4 (DXT1) or 12, and 00 if pos is unused. -/
def Obligations.ColourIndexFieldReadsBack : Prop :=
  ∀ (p : Config.Params) (o : Operands) (pix : Vector Word 16) (wk : Work),
    1 ≤ o.w → o.w ≤ 4 → 1 ≤ o.h → o.h ≤ 4 →
    ∀ x y e : Nat, x < 4 → y < 4 → e < 2 →
      streamBit (if o.mode = .dxt1 then 4 else 12) (2 * (x + 4 * y) + e) (encodeWork p o pix wk).ob =
        (decide (x < o.w ∧ y < o.h) &&
          (colorCode p o (encodeWork p o pix wk) (entry pix (x + 4 * y))).getLsbD e)

/-- 44_block_packer.md R144, R148: in the finished DXT3 block, position pos holds the top four bits of its alpha at
stream bits 4*pos.. of bytes 0 to 7, and 0 if pos is unused. -/
def Obligations.Dxt3AlphaFieldReadsBack : Prop :=
  ∀ (p : Config.Params) (o : Operands) (pix : Vector Word 16) (wk : Work), o.mode = .dxt3 →
    1 ≤ o.w → o.w ≤ 4 → 1 ≤ o.h → o.h ≤ 4 →
    ∀ x y e : Nat, x < 4 → y < 4 → e < 4 →
      streamBit 0 (4 * (x + 4 * y) + e) (encodeWork p o pix wk).ob =
        (decide (x < o.w ∧ y < o.h) && (entry pix (x + 4 * y)).getLsbD (28 + e))

/-- 44_block_packer.md R147, R148: in the finished DXT5 block, position pos holds its alpha code at stream bits
3*pos.. of bytes 2 to 7, and 0 if pos is unused. -/
def Obligations.Dxt5AlphaFieldReadsBack : Prop :=
  ∀ (p : Config.Params) (o : Operands) (pix : Vector Word 16) (wk : Work), o.mode = .dxt5 →
    1 ≤ o.w → o.w ≤ 4 → 1 ≤ o.h → o.h ≤ 4 →
    ∀ x y e : Nat, x < 4 → y < 4 → e < 3 →
      let f := encodeWork p o pix wk
      streamBit 2 (3 * (x + 4 * y) + e) f.ob =
        (decide (x < o.w ∧ y < o.h) &&
          (acode f.alpha0 f.alpha1 ((entry pix (x + 4 * y)).extractLsb' 24 8)).getLsbD e)

/-- 44_block_packer.md R150: after every DXT5 encode OB[0] ≤ OB[1]; after every encode the 8-bit endpoints are in
canonical order; a uniform block (no alpha 0, or PTE = 0, or DXT3 or DXT5) has equal endpoints and index bits 0. -/
def Obligations.FinishedBlockProperties : Prop :=
  ∀ (p : Config.Params) (o : Operands) (pix : Vector Word 16) (wk : Work),
    1 ≤ o.w → o.w ≤ 4 → 1 ≤ o.h → o.h ≤ 4 →
    let f := encodeWork p o pix wk
    (o.mode = .dxt5 → (entry f.ob 0).toNat ≤ (entry f.ob 1).toNat) ∧
    lexless f.color0 f.color1 = false ∧
    ∀ px : Word, (∀ pos ∈ usedPositions o.w o.h, entry pix pos = px) →
      (pixelAlpha px ≠ 0#8 ∨ o.pte = false ∨ o.mode ≠ .dxt1) →
      f.color0 = pixelColor px ∧ f.color1 = pixelColor px ∧
      ∀ t, t < 32 → streamBit (if o.mode = .dxt1 then 4 else 12) t f.ob = false

/-! ### The encode function: what it depends on -/

/-- 00_scope.md R6, 45_commands.md R160: the block depends on the command and the pixels at the used positions only:
not on unused pixels, and not on what the working state held before ("No hidden state persists across blocks"). -/
def Obligations.EncodeDependsOnUsedPixelsOnly : Prop :=
  ∀ (p : Config.Params) (o : Operands) (pix pix' : Vector Word 16) (wk wk' : Work),
    1 ≤ o.w → o.w ≤ 4 → 1 ≤ o.h → o.h ≤ 4 →
    (∀ pos ∈ usedPositions o.w o.h, entry pix pos = entry pix' pos) →
    encodeBlock p o pix wk = encodeBlock p o pix' wk'

/-- 30_encoding.md R67: in DXT3 and DXT5 PTE is ignored; in DXT1 with PTE = 0 alpha never affects the block. -/
def Obligations.PunchThroughOnlyInDxt1 : Prop :=
  (∀ (p : Config.Params) (o : Operands) (pix : Vector Word 16) (wk : Work) (pte : Bool), o.mode ≠ .dxt1 →
    encodeBlock p { o with pte := pte } pix wk = encodeBlock p o pix wk) ∧
  (∀ (p : Config.Params) (o : Operands) (pix pix' : Vector Word 16) (wk : Work), o.mode = .dxt1 → o.pte = false →
    1 ≤ o.w → o.w ≤ 4 → 1 ≤ o.h → o.h ≤ 4 →
    (∀ pos ∈ usedPositions o.w o.h, pixelColor (entry pix pos) = pixelColor (entry pix' pos)) →
    encodeBlock p o pix wk = encodeBlock p o pix' wk)

/-- 30_encoding.md R65 ("METRIC does not affect the alpha distance"), 43_alpha_reducer.md R126: the alpha half of a
DXT5 block, bytes 0 to 7, depends on neither the metric, its parameters nor any colour. -/
def Obligations.Dxt5AlphaHalfIgnoresColour : Prop :=
  ∀ (p p' : Config.Params) (o o' : Operands) (pix pix' : Vector Word 16) (wk wk' : Work),
    o.mode = .dxt5 → o'.mode = .dxt5 → o'.w = o.w → o'.h = o.h →
    1 ≤ o.w → o.w ≤ 4 → 1 ≤ o.h → o.h ≤ 4 →
    (∀ pos ∈ usedPositions o.w o.h, pixelAlpha (entry pix pos) = pixelAlpha (entry pix' pos)) →
    (encodeBlock p o pix wk).take 8 = (encodeBlock p' o' pix' wk').take 8

/-! ### Encoding -/

/-- 30_encoding.md R62, R63: decoding the encoded words of an instruction gives it back, for every instruction and
every operand value the encoding admits (the ill-formed sizes of R66 among them). -/
def Obligations.DecodeOfEncodeIsIdentity : Prop :=
  ∀ i : Instr, decode (encode i) = .ok i

/-- 30_encoding.md R62, R69, R70: words that decode are the encoding of what they decode to (a read's data word is
not looked at), and a command word that does not decode has a reserved bit set or MODE = 3, named in that order. -/
def Obligations.DecodedWordsEncodeBack : Prop :=
  (∀ (bt : BitVec 9) (data : Word) (i : Instr), decodeBus bt data = .ok i →
    encode i = .bus bt (if bt.getLsbD 8 then data else 0#32)) ∧
  (∀ (v : Word) (i : Instr), decodeCmd v = .ok i → encode i = .cmd v) ∧
  (∀ v : Word,
    (decodeCmd v = .error .reservedBits ↔ v &&& 0xFFFFE880#32 ≠ 0#32) ∧
    (decodeCmd v = .error .reservedMode ↔ v &&& 0xFFFFE880#32 = 0#32 ∧ v.toNat % 4 = 3))

/-- 30_encoding.md R72 and the bus words of 95_test_vectors.md section 2.1: some words as the spec writes them. -/
def Obligations.SpecWordsDecodeAsWritten : Prop :=
  decodeCmd 0x0000144C#32 = .ok (.encDxt1 .avg 4#3 4#3 true) ∧
  decodeCmd 0x00000446#32 = .ok (.encDxt5 .srgb 4#3 4#3 false) ∧
  decodeCmd 0x00000239#32 = .ok (.encDxt3 .yuv 3#3 2#3 false) ∧
  decodeBus 0x154#9 0xFF0000FF#32 = .ok (.wrPix 5 0xFF0000FF#32) ∧
  decodeBus 0x07C#9 0#32 = .ok (.rdPix 15) ∧ decodeBus 0x08C#9 0#32 = .ok (.rdOut 3) ∧
  decodeBus 0x104#9 0#32 = .error .readOnly ∧ decodeBus 0x006#9 0#32 = .error .misaligned ∧
  decodeBus 0x0FC#9 0#32 = .error .reservedOffset

/-! ### The step -/

/-- 20_memory.md R42, R50: when the next turn is a 32-bit access whose word decodes to i, the step is exec of i on
the state with that turn taken. -/
def Obligations.StepRunsDecodedAccess : Prop :=
  ∀ (s : State) (a : Access) (rest : List Turn) (i : Instr), s.turns = .access a :: rest → a.width = 32 →
    decodeBus a.bt a.data = .ok i → step s = exec i { s with turns := rest }

/-- 00_scope.md R9, 45_commands.md R164: when the next turn is the encoder's (or none is left: the model's choice, log 4)
and BUSY = 1, the step is exec of the command in SNAP_CMD; while IDLE it only takes the turn, which is the model's
choice (log 9, DEDUCED from R9). -/
def Obligations.StepRunsSnapshotCommand : Prop :=
  (∀ (s : State) (i : Instr), s.NextIsEncoder → s.busy = true → decodeCmd s.hidden.snapCmd = .ok i →
    step s = exec i { s with turns := s.turns.tail }) ∧
  (∀ s : State, s.NextIsEncoder → s.busy = false → step s = .next { s with turns := s.turns.tail })

/-- 45_commands.md R173 (20_memory.md R43, R44, R45): an access of another width, misaligned, at a reserved offset or
writing STATUS or OUT gets BusError with its offset and changes no state; every other access is a bus operation. -/
def Obligations.IllegalAccessesGetBusErrorOnly : Prop :=
  ∀ (s : State) (a : Access) (rest : List Turn), s.turns = .access a :: rest →
    (IllegalAccess a → step s = .next { s with turns := rest, replies := .busError a.off :: s.replies }) ∧
    (¬ IllegalAccess a → ∃ i, s.NextAccess i ∧ step s = exec i { s with turns := rest })

/-- 60_exceptions.md R180: nothing stops the block: every step of every state answers a next state. -/
def Obligations.EveryStepAnswersNext : Prop :=
  ∀ s : State, ∃ t, step s = .next t

/-- 70_reset_and_hazards.md R200, R201: the reset step, BUSY or not, writes CMD, STATUS, PV and OUT, and no completion
follows it. That PIX and the hidden state keep their values, which R200 calls unspecified, is the model's choice (log
14, DEDUCED from "are not written", unsafe); that an encoder turn of the IDLE machine changes nothing is too (log 9,
DEDUCED). -/
def Obligations.ResetStepClearsAndAbandons : Prop :=
  (∀ (s : State) (rest : List Turn), s.turns = .reset :: rest →
    step s = .next { s with
      turns := rest
      cmd := 0x00000000#32
      busy := false
      done := false
      err := 0#4
      drop := false
      pv := 0#16
      out := Vector.replicate 4 0x00000000#32 }) ∧
  (∀ s t : State, s.NextIsReset → step s = .next t → t.NextIsEncoder →
    step t = .next { t with turns := t.turns.tail })

/-- 10_state.md section 8: the values the spec gives for reset. -/
def Obligations.ResetStateHasSpecValues : Prop :=
  State.reset.cmd = 0x00000000#32 ∧ State.reset.statusWord = 0x00000000#32 ∧ State.reset.busy = false ∧
  State.reset.pv = 0#16 ∧ (∀ i : Fin 4, State.reset.out[i] = 0x00000000#32) ∧
  ∀ k : Fin 16, State.reset.readPix k = 0x00000000#32

/-! ### Rules of the whole machine -/

/-- 10_state.md R22: CMD is written only by WR.CMD while BUSY = 0, which stores all 32 bits whether the word is then
accepted or rejected, and by reset; a WR.CMD while BUSY leaves it; RD.CMD returns it. -/
def Obligations.CmdWrittenOnlyByUndroppedWrite : Prop :=
  (∀ s : State, exec .rdCmd s = .next { s with replies := .data s.cmd :: s.replies }) ∧
  (∀ (s : State) (v : Word), ∃ t, exec (.wrCmd v) s = .next t ∧ t.cmd = if s.busy then s.cmd else v) ∧
  (∀ s t : State, step s = .next t → t.cmd ≠ s.cmd →
    s.NextIsReset ∧ t.cmd = 0x00000000#32 ∨ s.busy = false ∧ s.NextAccess (.wrCmd t.cmd)) ∧
  State.reset.cmd = 0x00000000#32

/-- 10_state.md R25: PV[k] is set by every WR.PIX to slot k and cleared only by reset; a slot with PV = 0 reads as 0
and a legal command that uses it fails CHECK with ERR_UNWRITTEN_PIXEL; STATUS bit 16+k is PV[k]; reset value all 0. -/
def Obligations.ValidBitsSetByWritePixClearedByReset : Prop :=
  (∀ s t : State, step s = .next t → ∀ k : Fin 16,
    (t.valid k.val = true ↔ ¬ s.NextIsReset ∧ (s.valid k.val = true ∨ ∃ v, s.NextAccess (.wrPix k v)))) ∧
  (∀ (s : State) (k : Fin 16), s.valid k.val = false →
    exec (.rdPix k) s = .next { s with replies := .data 0x00000000#32 :: s.replies }) ∧
  (∀ (s : State) (v : Word), LegalCommand v → (∃ pos ∈ cmdPositions v, s.valid pos = false) →
    s.check v = some .unwrittenPixel) ∧
  (∀ (s : State) (k : Fin 16), s.statusWord.getLsbD (16 + k.val) = s.valid k.val) ∧
  State.reset.pv = 0#16

/-- 10_state.md R26, 70_reset_and_hazards.md R204: a step changes OUT only if it is a reset or the completion of a
running command, after which BUSY = 0 and DONE = 1; so a RD.OUT while BUSY returns the previous result. -/
def Obligations.OutChangesOnlyAtCompletionOrReset : Prop :=
  ∀ s t : State, step s = .next t → t.out ≠ s.out →
    s.NextIsReset ∨ s.NextIsEncoder ∧ s.busy = true ∧ t.busy = false ∧ t.done = true

/-- 60_exceptions.md R190: ERR changes only by reset, or by a non-dropped WR.CMD, which sets it to 0 on acceptance
or to the new code; so no read of STATUS and no other step clears it. -/
def Obligations.ErrHoldsUntilNextCommand : Prop :=
  (∀ s t : State, s.Inv → step s = .next t → t.err ≠ s.err →
    s.NextIsReset ∧ t.err = 0#4 ∨ s.busy = false ∧ ∃ v, s.NextAccess (.wrCmd v)) ∧
  ∀ (s : State) (v : Word), s.busy = false → ∃ t, exec (.wrCmd v) s = .next t ∧
    (s.check v = none → t.err = 0#4) ∧ ∀ e, s.check v = some e → t.err = errCode e

/-- 70_reset_and_hazards.md R205, R206, 60_exceptions.md R196: no host access, of whatever kind, ends, fails or changes a
running encode: the snapshot, CMD, BUSY, DONE, ERR and OUT stay. -/
def Obligations.HostAccessLeavesRunningEncode : Prop :=
  ∀ s : State, s.busy = true → s.NextIsAccess → ∃ t, step s = .next t ∧
    t.hidden = s.hidden ∧ t.cmd = s.cmd ∧ t.busy = true ∧ t.done = s.done ∧ t.err = s.err ∧ t.out = s.out

/-- 45_commands.md R166 with R164, R165, 10_state.md R29: an accepted command always completes with its result. Whatever
bus accesses the host makes between the WR.CMD and the encoder's turn, OUT then holds the block of the command word
and of the pixels that stood in PIX at acceptance, with BUSY 0, DONE 1, ERR 0. -/
def Obligations.AcceptedCommandCompletesWithItsBlock : Prop :=
  ∀ (s : State) (v : Word) (mode : Mode) (mid : List Access) (rest : List Turn),
    s.busy = false → s.check v = none → cmdMode v = codeOfMode mode →
    s.turns = .access ⟨32, 0x100#9, v⟩ :: (mid.map Turn.access ++ .encoder :: rest) →
    ∃ u : State, Host.Core.run core (mid.length + 2) s = .next u ∧ u.turns = rest ∧ u.cmd = v ∧
      u.busy = false ∧ u.done = true ∧ u.err = 0#4 ∧
      u.out = outWords (encodeBlock s.params
        ⟨mode, metricOfCode (cmdMetric v), (cmdW v).toNat, (cmdH v).toNat, cmdPte v⟩ s.pix s.hidden.work)

/-- Every step keeps the invariant: (BUSY, DONE) legal (10_state.md R23), ERR a reported code (60_exceptions.md R195),
and, while BUSY, a legal snapshot of CMD whose used slots are valid (45_commands.md R165). -/
def Obligations.StepKeepsInvariant : Prop :=
  ∀ s t : State, s.Inv → step s = .next t → t.Inv

/-- The invariant holds right after reset (70_reset_and_hazards.md R200). -/
def Obligations.ResetMeetsInvariant : Prop := State.reset.Inv
end

