-- ==== Sys2Proof/Laws/Arrays.lean ====
section
/-! SUPPORT. Reading the register arrays and matrices after the updates the stages make. -/

namespace Sys2Proof.Machine

section
variable {α : Type} [Inhabited α] {n : Nat}

theorem entry_eq_getElem (v : Vector α n) (k : Nat) (h : k < n) : entry v k = v[k] := by
  simp [entry, h]

theorem entry_of_le (v : Vector α n) (k : Nat) (h : n ≤ k) : entry v k = default := by
  simp [entry, Nat.not_lt.mpr h]

theorem entry_ofFn (f : Fin n → α) (k : Nat) (h : k < n) : entry (Vector.ofFn f) k = f ⟨k, h⟩ := by
  simp [entry, h]

theorem entry_setIfInBounds (v : Vector α n) (i k : Nat) (x : α) :
    entry (v.setIfInBounds i x) k = if k = i ∧ k < n then x else entry v k := by
  by_cases hk : k < n
  · by_cases hi : k = i
    · subst hi; simp [entry, hk]
    · simp [entry, hk, hi, Ne.symm hi]
  · simp [entry, hk]

theorem ext_entry {v w : Vector α n} (h : ∀ k, k < n → entry v k = entry w k) : v = w := by
  apply Vector.ext
  intro k hk
  simpa only [entry_eq_getElem _ _ hk] using h k hk
end

theorem entry_toList (ob : Vector Byte 16) (k : Nat) : ob.toList[k]?.getD 0#8 = entry ob k := by
  have : (default : Byte) = 0#8 := rfl
  simp [entry, this]

theorem matrixAt_fillMatrix (n : Nat) (f : Nat → Nat → Int) (old : Matrix16) {i k : Nat}
    (hn : n ≤ 16) (hi : i < n) (hk : k < n) : matrixAt (fillMatrix n f old) i k = f i k := by
  have hi' : i < 16 := by omega
  have hk' : k < 16 := by omega
  simp [matrixAt, fillMatrix, entry_ofFn _ _ hi', entry_ofFn _ _ hk', hi, hk]

/-- The cost of a pair over a freshly filled matrix, without the matrix. -/
theorem colorCost_fillMatrix (n : Nat) (f : Nat → Nat → Int) (old : Matrix16) {i j : Nat}
    (hn : n ≤ 16) (hi : i < n) (hj : j < n) :
    colorCost (fillMatrix n f old) n i j = ((List.range n).map fun k => min (f i k) (f j k)).sum := by
  unfold colorCost
  congr 1
  apply List.map_congr_left
  intro k hk
  have hk : k < n := by simpa using hk
  simp only [matrixAt_fillMatrix n f old hn hi hk, matrixAt_fillMatrix n f old hn hj hk]

theorem alphaCost_fillMatrix (n : Nat) (f : Nat → Nat → Int) (old : Matrix16) (a : Vector Byte 16) {i j : Nat}
    (hn : n ≤ 16) (hi : i < n) (hj : j < n) :
    alphaCost (fillMatrix n f old) a n i j = ((List.range n).map fun k =>
      min (min (f i k) (f j k)) (min (distAlpha 0#8 (entry a k)) (distAlpha 255#8 (entry a k)))).sum := by
  unfold alphaCost
  congr 1
  apply List.map_congr_left
  intro k hk
  have hk : k < n := by simpa using hk
  simp only [matrixAt_fillMatrix n f old hn hi hk, matrixAt_fillMatrix n f old hn hj hk]

end Sys2Proof.Machine
end

