-- ==== Sys2Proof/Laws/Encode.lean ====
section
/-! SUPPORT. How the endpoints pass through the stages of ENCODE (45_commands.md R160): what each stage leaves of the
samples and endpoints the next one reads. -/

namespace Sys2Proof.Machine

/-! ### What COLLECT leaves (40_sample_collector.md R83) -/

theorem entry_collect_c (w h : Nat) (pix : Vector Word 16) (wk : Work) {k : Nat} (hk : k < w * h) (h16 : k < 16) :
    entry (collect w h pix wk).c k = pixelColor (entry pix (samplePos w k)) := by
  simp [collect, entry_ofFn _ _ h16, hk]

theorem entry_collect_a (w h : Nat) (pix : Vector Word 16) (wk : Work) {k : Nat} (hk : k < w * h) (h16 : k < 16) :
    entry (collect w h pix wk).a k = pixelAlpha (entry pix (samplePos w k)) := by
  simp [collect, entry_ofFn _ _ h16, hk]

/-! ### What the reducers leave to each other (43_alpha_reducer.md R126) -/

@[simp] theorem setAlphas_color0 (a b : Byte) (wk : Work) : (setAlphas a b wk).color0 = wk.color0 := by
  unfold setAlphas; split <;> rfl
@[simp] theorem setAlphas_color1 (a b : Byte) (wk : Work) : (setAlphas a b wk).color1 = wk.color1 := by
  unfold setAlphas; split <;> rfl

@[simp] theorem reduceAlpha_color0 (n : Nat) (wk : Work) : (reduceAlpha n wk).color0 = wk.color0 := by
  unfold reduceAlpha; split <;> exact setAlphas_color0 _ _ _
@[simp] theorem reduceAlpha_color1 (n : Nat) (wk : Work) : (reduceAlpha n wk).color1 = wk.color1 := by
  unfold reduceAlpha; split <;> exact setAlphas_color1 _ _ _

@[simp] theorem reduceColor_a (p : Config.Params) (m : Metric) (n : Nat) (wk : Work) :
    (reduceColor p m n wk).a = wk.a := by
  unfold reduceColor; split <;> rfl

/-- In every mode the colour endpoints after the reducers are REDUCE_COLOR's. -/
theorem reduce_color0 (p : Config.Params) (o : Operands) (wk : Work) :
    (reduce p o wk).color0 = (reduceColor p o.metric o.n wk).color0 := by
  unfold reduce
  split
  · rfl
  · rfl
  · exact reduceAlpha_color0 _ _
theorem reduce_color1 (p : Config.Params) (o : Operands) (wk : Work) :
    (reduce p o wk).color1 = (reduceColor p o.metric o.n wk).color1 := by
  unfold reduce
  split
  · rfl
  · rfl
  · exact reduceAlpha_color1 _ _

/-! ### What PACK leaves (44_block_packer.md R131, R149) -/

/-- CANON on color0, as a choice between the two. -/
theorem canon_color0 (wk : Work) :
    (canon wk).color0 = if lexless wk.color0 wk.color1 then wk.color1 else wk.color0 := by
  unfold canon; split <;> rfl
theorem canon_color1 (wk : Work) :
    (canon wk).color1 = if lexless wk.color0 wk.color1 then wk.color0 else wk.color1 := by
  unfold canon; split <;> rfl
@[simp] theorem canon_alpha0 (wk : Work) : (canon wk).alpha0 = wk.alpha0 := by unfold canon; split <;> rfl
@[simp] theorem canon_alpha1 (wk : Work) : (canon wk).alpha1 = wk.alpha1 := by unfold canon; split <;> rfl

/-- PACK writes OB and what CANON writes, nothing else. -/
theorem pack_eq (p : Config.Params) (o : Operands) (pix : Vector Word 16) (wk : Work) :
    ∃ ob, pack p o pix wk = { canon wk with ob := ob } := ⟨_, rfl⟩

end Sys2Proof.Machine
end

