-- ==== Sys2Proof/Laws/State.lean ====
section
/-! SUPPORT. One lemma per field per update of State, each true by rfl: what an update writes and what it leaves.
They are what later proofs use instead of unfolding a record update. -/

namespace Sys2Proof.Machine.State

/-! ### withTurns -/

@[simp] theorem withTurns_cmd (s : State) (ts : List Turn) : (s.withTurns ts).cmd = s.cmd := rfl
@[simp] theorem withTurns_busy (s : State) (ts : List Turn) : (s.withTurns ts).busy = s.busy := rfl
@[simp] theorem withTurns_done (s : State) (ts : List Turn) : (s.withTurns ts).done = s.done := rfl
@[simp] theorem withTurns_err (s : State) (ts : List Turn) : (s.withTurns ts).err = s.err := rfl
@[simp] theorem withTurns_drop (s : State) (ts : List Turn) : (s.withTurns ts).drop = s.drop := rfl
@[simp] theorem withTurns_pv (s : State) (ts : List Turn) : (s.withTurns ts).pv = s.pv := rfl
@[simp] theorem withTurns_pix (s : State) (ts : List Turn) : (s.withTurns ts).pix = s.pix := rfl
@[simp] theorem withTurns_out (s : State) (ts : List Turn) : (s.withTurns ts).out = s.out := rfl
@[simp] theorem withTurns_hidden (s : State) (ts : List Turn) : (s.withTurns ts).hidden = s.hidden := rfl
@[simp] theorem withTurns_params (s : State) (ts : List Turn) : (s.withTurns ts).params = s.params := rfl
@[simp] theorem withTurns_turns (s : State) (ts : List Turn) : (s.withTurns ts).turns = ts := rfl
@[simp] theorem withTurns_replies (s : State) (ts : List Turn) : (s.withTurns ts).replies = s.replies := rfl
@[simp] theorem withTurns_freeCount (s : State) (ts : List Turn) : (s.withTurns ts).freeCount = s.freeCount := rfl

/-! ### reply -/

@[simp] theorem reply_cmd (s : State) (r : Reply) : (s.reply r).cmd = s.cmd := rfl
@[simp] theorem reply_busy (s : State) (r : Reply) : (s.reply r).busy = s.busy := rfl
@[simp] theorem reply_done (s : State) (r : Reply) : (s.reply r).done = s.done := rfl
@[simp] theorem reply_err (s : State) (r : Reply) : (s.reply r).err = s.err := rfl
@[simp] theorem reply_drop (s : State) (r : Reply) : (s.reply r).drop = s.drop := rfl
@[simp] theorem reply_pv (s : State) (r : Reply) : (s.reply r).pv = s.pv := rfl
@[simp] theorem reply_pix (s : State) (r : Reply) : (s.reply r).pix = s.pix := rfl
@[simp] theorem reply_out (s : State) (r : Reply) : (s.reply r).out = s.out := rfl
@[simp] theorem reply_hidden (s : State) (r : Reply) : (s.reply r).hidden = s.hidden := rfl
@[simp] theorem reply_params (s : State) (r : Reply) : (s.reply r).params = s.params := rfl
@[simp] theorem reply_turns (s : State) (r : Reply) : (s.reply r).turns = s.turns := rfl
@[simp] theorem reply_replies (s : State) (r : Reply) : (s.reply r).replies = r :: s.replies := rfl
@[simp] theorem reply_freeCount (s : State) (r : Reply) : (s.reply r).freeCount = s.freeCount := rfl

/-! ### setValid -/

@[simp] theorem setValid_cmd (s : State) (k : Fin 16) : (s.setValid k).cmd = s.cmd := rfl
@[simp] theorem setValid_busy (s : State) (k : Fin 16) : (s.setValid k).busy = s.busy := rfl
@[simp] theorem setValid_done (s : State) (k : Fin 16) : (s.setValid k).done = s.done := rfl
@[simp] theorem setValid_err (s : State) (k : Fin 16) : (s.setValid k).err = s.err := rfl
@[simp] theorem setValid_drop (s : State) (k : Fin 16) : (s.setValid k).drop = s.drop := rfl
@[simp] theorem setValid_pv (s : State) (k : Fin 16) : (s.setValid k).pv = s.pv ||| (1#16 <<< k.val) := rfl
@[simp] theorem setValid_pix (s : State) (k : Fin 16) : (s.setValid k).pix = s.pix := rfl
@[simp] theorem setValid_out (s : State) (k : Fin 16) : (s.setValid k).out = s.out := rfl
@[simp] theorem setValid_hidden (s : State) (k : Fin 16) : (s.setValid k).hidden = s.hidden := rfl
@[simp] theorem setValid_params (s : State) (k : Fin 16) : (s.setValid k).params = s.params := rfl
@[simp] theorem setValid_turns (s : State) (k : Fin 16) : (s.setValid k).turns = s.turns := rfl
@[simp] theorem setValid_replies (s : State) (k : Fin 16) : (s.setValid k).replies = s.replies := rfl
@[simp] theorem setValid_freeCount (s : State) (k : Fin 16) : (s.setValid k).freeCount = s.freeCount := rfl

/-! ### startStatus -/

@[simp] theorem startStatus_cmd (s : State) : s.startStatus.cmd = s.cmd := rfl
@[simp] theorem startStatus_busy (s : State) : s.startStatus.busy = true := rfl
@[simp] theorem startStatus_done (s : State) : s.startStatus.done = false := rfl
@[simp] theorem startStatus_err (s : State) : s.startStatus.err = 0#4 := rfl
@[simp] theorem startStatus_drop (s : State) : s.startStatus.drop = false := rfl
@[simp] theorem startStatus_pv (s : State) : s.startStatus.pv = s.pv := rfl
@[simp] theorem startStatus_pix (s : State) : s.startStatus.pix = s.pix := rfl
@[simp] theorem startStatus_out (s : State) : s.startStatus.out = s.out := rfl
@[simp] theorem startStatus_hidden (s : State) : s.startStatus.hidden = s.hidden := rfl
@[simp] theorem startStatus_params (s : State) : s.startStatus.params = s.params := rfl
@[simp] theorem startStatus_turns (s : State) : s.startStatus.turns = s.turns := rfl
@[simp] theorem startStatus_replies (s : State) : s.startStatus.replies = s.replies := rfl
@[simp] theorem startStatus_freeCount (s : State) : s.startStatus.freeCount = s.freeCount := rfl

/-! ### completeStatus -/

@[simp] theorem completeStatus_cmd (s : State) : s.completeStatus.cmd = s.cmd := rfl
@[simp] theorem completeStatus_busy (s : State) : s.completeStatus.busy = false := rfl
@[simp] theorem completeStatus_done (s : State) : s.completeStatus.done = true := rfl
@[simp] theorem completeStatus_err (s : State) : s.completeStatus.err = s.err := rfl
@[simp] theorem completeStatus_drop (s : State) : s.completeStatus.drop = s.drop := rfl
@[simp] theorem completeStatus_pv (s : State) : s.completeStatus.pv = s.pv := rfl
@[simp] theorem completeStatus_pix (s : State) : s.completeStatus.pix = s.pix := rfl
@[simp] theorem completeStatus_out (s : State) : s.completeStatus.out = s.out := rfl
@[simp] theorem completeStatus_hidden (s : State) : s.completeStatus.hidden = s.hidden := rfl
@[simp] theorem completeStatus_params (s : State) : s.completeStatus.params = s.params := rfl
@[simp] theorem completeStatus_turns (s : State) : s.completeStatus.turns = s.turns := rfl
@[simp] theorem completeStatus_replies (s : State) : s.completeStatus.replies = s.replies := rfl
@[simp] theorem completeStatus_freeCount (s : State) : s.completeStatus.freeCount = s.freeCount := rfl

/-! ### reject -/

@[simp] theorem reject_cmd (s : State) (e : CmdError) : (s.reject e).cmd = s.cmd := rfl
@[simp] theorem reject_busy (s : State) (e : CmdError) : (s.reject e).busy = false := rfl
@[simp] theorem reject_done (s : State) (e : CmdError) : (s.reject e).done = true := rfl
@[simp] theorem reject_err (s : State) (e : CmdError) : (s.reject e).err = errCode e := rfl
@[simp] theorem reject_drop (s : State) (e : CmdError) : (s.reject e).drop = false := rfl
@[simp] theorem reject_pv (s : State) (e : CmdError) : (s.reject e).pv = s.pv := rfl
@[simp] theorem reject_pix (s : State) (e : CmdError) : (s.reject e).pix = s.pix := rfl
@[simp] theorem reject_out (s : State) (e : CmdError) : (s.reject e).out = s.out := rfl
@[simp] theorem reject_hidden (s : State) (e : CmdError) : (s.reject e).hidden = s.hidden := rfl
@[simp] theorem reject_params (s : State) (e : CmdError) : (s.reject e).params = s.params := rfl
@[simp] theorem reject_turns (s : State) (e : CmdError) : (s.reject e).turns = s.turns := rfl
@[simp] theorem reject_replies (s : State) (e : CmdError) : (s.reject e).replies = s.replies := rfl
@[simp] theorem reject_freeCount (s : State) (e : CmdError) : (s.reject e).freeCount = s.freeCount := rfl

/-! ### dropCommand -/

@[simp] theorem dropCommand_cmd (s : State) : s.dropCommand.cmd = s.cmd := rfl
@[simp] theorem dropCommand_busy (s : State) : s.dropCommand.busy = s.busy := rfl
@[simp] theorem dropCommand_done (s : State) : s.dropCommand.done = s.done := rfl
@[simp] theorem dropCommand_err (s : State) : s.dropCommand.err = s.err := rfl
@[simp] theorem dropCommand_drop (s : State) : s.dropCommand.drop = true := rfl
@[simp] theorem dropCommand_pv (s : State) : s.dropCommand.pv = s.pv := rfl
@[simp] theorem dropCommand_pix (s : State) : s.dropCommand.pix = s.pix := rfl
@[simp] theorem dropCommand_out (s : State) : s.dropCommand.out = s.out := rfl
@[simp] theorem dropCommand_hidden (s : State) : s.dropCommand.hidden = s.hidden := rfl
@[simp] theorem dropCommand_params (s : State) : s.dropCommand.params = s.params := rfl
@[simp] theorem dropCommand_turns (s : State) : s.dropCommand.turns = s.turns := rfl
@[simp] theorem dropCommand_replies (s : State) : s.dropCommand.replies = s.replies := rfl
@[simp] theorem dropCommand_freeCount (s : State) : s.dropCommand.freeCount = s.freeCount := rfl

/-! ### busError -/

@[simp] theorem busError_cmd (s : State) (off : BitVec 8) : (s.busError off).cmd = s.cmd := rfl
@[simp] theorem busError_busy (s : State) (off : BitVec 8) : (s.busError off).busy = s.busy := rfl
@[simp] theorem busError_done (s : State) (off : BitVec 8) : (s.busError off).done = s.done := rfl
@[simp] theorem busError_err (s : State) (off : BitVec 8) : (s.busError off).err = s.err := rfl
@[simp] theorem busError_drop (s : State) (off : BitVec 8) : (s.busError off).drop = s.drop := rfl
@[simp] theorem busError_pv (s : State) (off : BitVec 8) : (s.busError off).pv = s.pv := rfl
@[simp] theorem busError_pix (s : State) (off : BitVec 8) : (s.busError off).pix = s.pix := rfl
@[simp] theorem busError_out (s : State) (off : BitVec 8) : (s.busError off).out = s.out := rfl
@[simp] theorem busError_hidden (s : State) (off : BitVec 8) : (s.busError off).hidden = s.hidden := rfl
@[simp] theorem busError_params (s : State) (off : BitVec 8) : (s.busError off).params = s.params := rfl
@[simp] theorem busError_turns (s : State) (off : BitVec 8) : (s.busError off).turns = s.turns := rfl
@[simp] theorem busError_replies (s : State) (off : BitVec 8) : (s.busError off).replies = .busError off :: s.replies := rfl
@[simp] theorem busError_freeCount (s : State) (off : BitVec 8) : (s.busError off).freeCount = s.freeCount := rfl

/-! ### writePix -/

@[simp] theorem writePix_cmd (s : State) (k : Fin 16) (v : Word) : (s.writePix k v).cmd = s.cmd := rfl
@[simp] theorem writePix_busy (s : State) (k : Fin 16) (v : Word) : (s.writePix k v).busy = s.busy := rfl
@[simp] theorem writePix_done (s : State) (k : Fin 16) (v : Word) : (s.writePix k v).done = s.done := rfl
@[simp] theorem writePix_err (s : State) (k : Fin 16) (v : Word) : (s.writePix k v).err = s.err := rfl
@[simp] theorem writePix_drop (s : State) (k : Fin 16) (v : Word) : (s.writePix k v).drop = s.drop := rfl
@[simp] theorem writePix_pv (s : State) (k : Fin 16) (v : Word) : (s.writePix k v).pv = s.pv ||| (1#16 <<< k.val) := rfl
@[simp] theorem writePix_pix (s : State) (k : Fin 16) (v : Word) : (s.writePix k v).pix = s.pix.set k v := rfl
@[simp] theorem writePix_out (s : State) (k : Fin 16) (v : Word) : (s.writePix k v).out = s.out := rfl
@[simp] theorem writePix_hidden (s : State) (k : Fin 16) (v : Word) : (s.writePix k v).hidden = s.hidden := rfl
@[simp] theorem writePix_params (s : State) (k : Fin 16) (v : Word) : (s.writePix k v).params = s.params := rfl
@[simp] theorem writePix_turns (s : State) (k : Fin 16) (v : Word) : (s.writePix k v).turns = s.turns := rfl
@[simp] theorem writePix_replies (s : State) (k : Fin 16) (v : Word) : (s.writePix k v).replies = s.replies := rfl
@[simp] theorem writePix_freeCount (s : State) (k : Fin 16) (v : Word) : (s.writePix k v).freeCount = s.freeCount := rfl

/-! ### storeCmd -/

@[simp] theorem storeCmd_cmd (s : State) (v : Word) : (s.storeCmd v).cmd = v := rfl
@[simp] theorem storeCmd_busy (s : State) (v : Word) : (s.storeCmd v).busy = s.busy := rfl
@[simp] theorem storeCmd_done (s : State) (v : Word) : (s.storeCmd v).done = s.done := rfl
@[simp] theorem storeCmd_err (s : State) (v : Word) : (s.storeCmd v).err = s.err := rfl
@[simp] theorem storeCmd_drop (s : State) (v : Word) : (s.storeCmd v).drop = s.drop := rfl
@[simp] theorem storeCmd_pv (s : State) (v : Word) : (s.storeCmd v).pv = s.pv := rfl
@[simp] theorem storeCmd_pix (s : State) (v : Word) : (s.storeCmd v).pix = s.pix := rfl
@[simp] theorem storeCmd_out (s : State) (v : Word) : (s.storeCmd v).out = s.out := rfl
@[simp] theorem storeCmd_hidden (s : State) (v : Word) : (s.storeCmd v).hidden = s.hidden := rfl
@[simp] theorem storeCmd_params (s : State) (v : Word) : (s.storeCmd v).params = s.params := rfl
@[simp] theorem storeCmd_turns (s : State) (v : Word) : (s.storeCmd v).turns = s.turns := rfl
@[simp] theorem storeCmd_replies (s : State) (v : Word) : (s.storeCmd v).replies = s.replies := rfl
@[simp] theorem storeCmd_freeCount (s : State) (v : Word) : (s.storeCmd v).freeCount = s.freeCount := rfl

/-! ### accept -/

@[simp] theorem accept_cmd (s : State) (v : Word) : (s.accept v).cmd = s.cmd := rfl
@[simp] theorem accept_busy (s : State) (v : Word) : (s.accept v).busy = true := rfl
@[simp] theorem accept_done (s : State) (v : Word) : (s.accept v).done = false := rfl
@[simp] theorem accept_err (s : State) (v : Word) : (s.accept v).err = 0#4 := rfl
@[simp] theorem accept_drop (s : State) (v : Word) : (s.accept v).drop = false := rfl
@[simp] theorem accept_pv (s : State) (v : Word) : (s.accept v).pv = s.pv := rfl
@[simp] theorem accept_pix (s : State) (v : Word) : (s.accept v).pix = s.pix := rfl
@[simp] theorem accept_out (s : State) (v : Word) : (s.accept v).out = s.out := rfl
@[simp] theorem accept_hidden (s : State) (v : Word) : (s.accept v).hidden = { s.hidden with snapCmd := v, snapPix := s.pix } := rfl
@[simp] theorem accept_params (s : State) (v : Word) : (s.accept v).params = s.params := rfl
@[simp] theorem accept_turns (s : State) (v : Word) : (s.accept v).turns = s.turns := rfl
@[simp] theorem accept_replies (s : State) (v : Word) : (s.accept v).replies = s.replies := rfl
@[simp] theorem accept_freeCount (s : State) (v : Word) : (s.accept v).freeCount = s.freeCount := rfl

/-! ### complete -/

@[simp] theorem complete_cmd (s : State) (ws : Vector Word 4) : (s.complete ws).cmd = s.cmd := rfl
@[simp] theorem complete_busy (s : State) (ws : Vector Word 4) : (s.complete ws).busy = false := rfl
@[simp] theorem complete_done (s : State) (ws : Vector Word 4) : (s.complete ws).done = true := rfl
@[simp] theorem complete_err (s : State) (ws : Vector Word 4) : (s.complete ws).err = s.err := rfl
@[simp] theorem complete_drop (s : State) (ws : Vector Word 4) : (s.complete ws).drop = s.drop := rfl
@[simp] theorem complete_pv (s : State) (ws : Vector Word 4) : (s.complete ws).pv = s.pv := rfl
@[simp] theorem complete_pix (s : State) (ws : Vector Word 4) : (s.complete ws).pix = s.pix := rfl
@[simp] theorem complete_out (s : State) (ws : Vector Word 4) : (s.complete ws).out = ws := rfl
@[simp] theorem complete_hidden (s : State) (ws : Vector Word 4) : (s.complete ws).hidden = Config.freeHidden s.freeCount := rfl
@[simp] theorem complete_params (s : State) (ws : Vector Word 4) : (s.complete ws).params = s.params := rfl
@[simp] theorem complete_turns (s : State) (ws : Vector Word 4) : (s.complete ws).turns = s.turns := rfl
@[simp] theorem complete_replies (s : State) (ws : Vector Word 4) : (s.complete ws).replies = s.replies := rfl
@[simp] theorem complete_freeCount (s : State) (ws : Vector Word 4) : (s.complete ws).freeCount = s.freeCount + 1 := rfl

/-! ### platformReset -/

@[simp] theorem platformReset_cmd (s : State) : s.platformReset.cmd = 0#32 := rfl
@[simp] theorem platformReset_busy (s : State) : s.platformReset.busy = false := rfl
@[simp] theorem platformReset_done (s : State) : s.platformReset.done = false := rfl
@[simp] theorem platformReset_err (s : State) : s.platformReset.err = 0#4 := rfl
@[simp] theorem platformReset_drop (s : State) : s.platformReset.drop = false := rfl
@[simp] theorem platformReset_pv (s : State) : s.platformReset.pv = 0#16 := rfl
@[simp] theorem platformReset_pix (s : State) : s.platformReset.pix = s.pix := rfl
@[simp] theorem platformReset_out (s : State) : s.platformReset.out = Vector.replicate 4 0#32 := rfl
@[simp] theorem platformReset_hidden (s : State) : s.platformReset.hidden = s.hidden := rfl
@[simp] theorem platformReset_params (s : State) : s.platformReset.params = s.params := rfl
@[simp] theorem platformReset_turns (s : State) : s.platformReset.turns = s.turns := rfl
@[simp] theorem platformReset_replies (s : State) : s.platformReset.replies = s.replies := rfl
@[simp] theorem platformReset_freeCount (s : State) : s.platformReset.freeCount = s.freeCount := rfl

end Sys2Proof.Machine.State
end

