-- ==== Sys2Proof/Laws/Ops.lean ====
section
/-! SUPPORT. What each shared operation over State can do, said once: the cases of CHECK, of the write of CMD, of
the encoder running a command, and of one step. Later proofs take these instead of unfolding the operations. -/

namespace Sys2Proof.Machine

/-! ### Fields of STATUS -/

theorem valid_setValid (s : State) (k : Fin 16) (j : Nat) (hj : j < 16) :
    (s.setValid k).valid j = (decide (j = k.val) || s.valid j) := by
  obtain ⟨k, hk⟩ := k
  simp only [State.valid, State.setValid_pv, BitVec.getLsbD_or]
  have : (1#16 <<< k).getLsbD j = decide (j = k) := by
    interval_cases k <;> interval_cases j <;> rfl
  rw [this, Bool.or_comm]

/-- The codes DXTE reports are 1 to 4 (60_exceptions.md R181). -/
theorem errCode_range (e : CmdError) : 1 ≤ (errCode e).toNat ∧ (errCode e).toNat ≤ 4 := by
  cases e <;> decide

theorem errCode_ne_zero (e : CmdError) : errCode e ≠ 0#4 := by
  cases e <;> decide

/-! ### CHECK -/

/-- CHECK does not read CMD. -/
@[simp] theorem check_storeCmd (s : State) (v x : Word) : (s.storeCmd x).check v = s.check v := rfl

/-- A word passes CHECK iff it is a legal command whose used slots are valid. -/
theorem check_eq_none_iff (s : State) (v : Word) :
    s.check v = none ↔ LegalCommand v ∧ ∀ pos ∈ cmdPositions v, s.valid pos = true := by
  unfold State.check LegalCommand cmdPositions
  split
  · next h => exact ⟨nofun, fun g => absurd g.1.1 h⟩
  · next h =>
    split
    · next h2 => exact ⟨nofun, fun g => absurd h2 g.1.2.1⟩
    · next h2 =>
      split
      · next h3 =>
        refine ⟨nofun, fun g => ?_⟩
        simp [g.1.2.2.1, g.1.2.2.2] at h3
      · next h3 =>
        have h3 : sizeOk (cmdW v) = true ∧ sizeOk (cmdH v) = true := by simpa using h3
        have h1 : v &&& reservedMask = 0#32 := by simpa using h
        split
        · next h4 => exact ⟨fun _ => ⟨⟨h1, h2, h3.1, h3.2⟩, by simpa using h4⟩, fun _ => rfl⟩
        · next h4 =>
          refine ⟨nofun, fun g => absurd ?_ h4⟩
          simpa using g.2

/-! ### The write of CMD -/

theorem writeCmd_busy (s : State) (v : Word) (h : s.busy = true) : s.writeCmd v = s.dropCommand := by
  simp [State.writeCmd, h]

theorem writeCmd_accepted (s : State) (v : Word) (h : s.busy = false) (hc : s.check v = none) :
    s.writeCmd v = (s.storeCmd v).accept v := by
  simp [State.writeCmd, h, State.issue, hc]

theorem writeCmd_rejected (s : State) (v : Word) (e : CmdError) (h : s.busy = false) (hc : s.check v = some e) :
    s.writeCmd v = (s.storeCmd v).reject e := by
  simp [State.writeCmd, h, State.issue, hc]

/-- The three things a write of CMD can do. -/
theorem writeCmd_cases (s : State) (v : Word) :
    (s.busy = true ∧ s.writeCmd v = s.dropCommand) ∨
    (s.busy = false ∧ s.check v = none ∧ s.writeCmd v = (s.storeCmd v).accept v) ∨
    (∃ e, s.busy = false ∧ s.check v = some e ∧ s.writeCmd v = (s.storeCmd v).reject e) := by
  cases hb : s.busy with
  | true => exact .inl ⟨rfl, writeCmd_busy s v hb⟩
  | false =>
    cases hc : s.check v with
    | none => exact .inr (.inl ⟨rfl, rfl, writeCmd_accepted s v hb hc⟩)
    | some e => exact .inr (.inr ⟨e, rfl, rfl, writeCmd_rejected s v e hb hc⟩)

/-! ### The encoder running a command -/

theorem runCommand_idle (s : State) (mode : Mode) (metric : Metric) (w h : BitVec 3) (pte : Bool)
    (hb : s.busy = false) : s.runCommand mode metric w h pte = s := by
  simp [State.runCommand, hb]

theorem runCommand_legal (s : State) (mode : Mode) (metric : Metric) (w h : BitVec 3) (pte : Bool)
    (hb : s.busy = true) (hw : sizeOk w = true) (hh : sizeOk h = true) :
    s.runCommand mode metric w h pte = s.complete (outWords
      (encodeBlock s.params ⟨mode, metric, w.toNat, h.toNat, pte⟩ s.hidden.snapPix s.hidden.work)) := by
  simp [State.runCommand, hb, hw, hh]

theorem runCommand_illegal (s : State) (mode : Mode) (metric : Metric) (w h : BitVec 3) (pte : Bool)
    (hb : s.busy = true) (hs : (sizeOk w && sizeOk h) = false) :
    s.runCommand mode metric w h pte = s.reject .invalidBlockSize := by
  simp [State.runCommand, hb, hs]

/-- The three things running a command can do. -/
theorem runCommand_cases (s : State) (mode : Mode) (metric : Metric) (w h : BitVec 3) (pte : Bool) :
    (s.busy = false ∧ s.runCommand mode metric w h pte = s) ∨
    (s.busy = true ∧ sizeOk w = true ∧ sizeOk h = true ∧
      ∃ ws, s.runCommand mode metric w h pte = s.complete ws) ∨
    (s.busy = true ∧ (sizeOk w && sizeOk h) = false ∧
      s.runCommand mode metric w h pte = s.reject .invalidBlockSize) := by
  cases hb : s.busy with
  | false => exact .inl ⟨rfl, runCommand_idle s mode metric w h pte hb⟩
  | true =>
    cases hs : sizeOk w && sizeOk h with
    | false => exact .inr (.inr ⟨rfl, rfl, runCommand_illegal s mode metric w h pte hb hs⟩)
    | true =>
      have hs : sizeOk w = true ∧ sizeOk h = true := by simpa using hs
      exact .inr (.inl ⟨rfl, hs.1, hs.2, _, runCommand_legal s mode metric w h pte hb hs.1 hs.2⟩)

/-! ### Decoding -/

/-- What a command word decodes to: its three fields and PTE, under the mode's constructor. -/
theorem decodeCmd_ok_cases {v : Word} {i : Instr} (h : decodeCmd v = .ok i) :
    i = .encDxt1 (metricOfCode (cmdMetric v)) (cmdW v) (cmdH v) (cmdPte v) ∨
    i = .encDxt3 (metricOfCode (cmdMetric v)) (cmdW v) (cmdH v) (cmdPte v) ∨
    i = .encDxt5 (metricOfCode (cmdMetric v)) (cmdW v) (cmdH v) (cmdPte v) := by
  unfold decodeCmd at h
  split at h
  · exact .inl (Except.ok.inj h).symm
  · split at h
    · exact .inr (.inl (Except.ok.inj h).symm)
    · split at h
      · exact .inr (.inr (Except.ok.inj h).symm)
      · split at h <;> cases h

/-- What a bus word decodes to. -/
theorem decodeBus_ok_cases {bt : BitVec 9} {d : Word} {i : Instr} (h : decodeBus bt d = .ok i) :
    i = .rdCmd ∨ i = .wrCmd d ∨ i = .rdStatus ∨ (∃ k, i = .rdPix k) ∨ (∃ k, i = .wrPix k d) ∨ ∃ j, i = .rdOut j := by
  unfold decodeBus at h
  repeat' split at h
  all_goals cases h
  · simp
  · simp
  · simp
  · exact .inr (.inr (.inr (.inl ⟨_, rfl⟩)))
  · exact .inr (.inr (.inr (.inr (.inl ⟨_, rfl⟩))))
  · exact .inr (.inr (.inr (.inr (.inr ⟨_, rfl⟩))))

end Sys2Proof.Machine
end

