-- ==== Sys2Proof/Laws/Packer.lean ====
section
/-! SUPPORT. What the packer's stores do to a byte and to a stream bit of the output buffer (44_block_packer.md
R134, R138), said once for each store. -/

namespace Sys2Proof.Machine

theorem entry_storeByte (ob : Vector Byte 16) (b k : Nat) (v : Byte) :
    entry (storeByte ob b v) k = if k = b ∧ k < 16 then v else entry ob k :=
  entry_setIfInBounds ob b k v

theorem entry_zeroFill (m : Mode) (ob : Vector Byte 16) {k : Nat} (h : k < 16) :
    entry (zeroFill m ob) k = if k < modeSize m then 0#8 else entry ob k := by
  rw [zeroFill, entry_ofFn _ _ h]
  split <;> simp [entry_eq_getElem _ _ h]

/-- A byte SETBIT does not touch. -/
theorem entry_setBit_ne (ob : Vector Byte 16) (base t k : Nat) (h : k ≠ base + t / 8) :
    entry (setBit base t ob) k = entry ob k := by
  simp [setBit, entry_storeByte, h]

/-- The bits of one mask `1 << e`. -/
theorem getLsbD_one_shiftLeft (e f : Nat) (he : e < 8) :
    (1#8 <<< e).getLsbD f = decide (f = e) := by
  rcases Nat.lt_or_ge f 8 with hf | hf
  · interval_cases e <;> interval_cases f <;> rfl
  · rw [BitVec.getLsbD_of_ge _ _ hf]
    exact (decide_eq_false (by omega)).symm

/-- Every bit of every byte after SETBIT. -/
theorem getLsbD_entry_setBit (ob : Vector Byte 16) (base t k e : Nat) (hb : base + t / 8 < 16) :
    (entry (setBit base t ob) k).getLsbD e =
      (decide (k = base + t / 8 ∧ e = t % 8) || (entry ob k).getLsbD e) := by
  by_cases hk : k = base + t / 8
  · subst hk
    have h8 : t % 8 < 8 := Nat.mod_lt _ (by decide)
    simp only [setBit, entry_storeByte, hb, and_self, if_true, BitVec.getLsbD_or,
      getLsbD_one_shiftLeft _ _ h8, true_and]
    rw [Bool.or_comm]
  · simp [entry_setBit_ne _ _ _ _ hk, hk]

/-- The fold of SETBITs over the first m bits of a code, bit by bit: the abstract bit number of byte k, bit e is
`8*k + e`, and stream bit t of base b is abstract bit `8*b + t`. -/
theorem getLsbD_entry_foldl_setBit {L : Nat} (c : BitVec L) (base start : Nat) (k e : Nat) (he : e < 8)
    (m : Nat) (hm : m ≤ L) (hb : base + (start + (m - 1)) / 8 < 16) (ob : Vector Byte 16) :
    (entry ((List.range m).foldl (fun ob f => if c.getLsbD f then setBit base (start + f) ob else ob) ob) k).getLsbD e
      = ((entry ob k).getLsbD e ||
          (decide (8 * base + start ≤ 8 * k + e ∧ 8 * k + e < 8 * base + start + m) &&
            c.getLsbD (8 * k + e - (8 * base + start)))) := by
  induction m with
  | zero =>
    have : ¬ (8 * base + start ≤ 8 * k + e ∧ 8 * k + e < 8 * base + start + 0) := by omega
    simp only [List.range_zero, List.foldl_nil, decide_eq_false this, Bool.false_and, Bool.or_false]
  | succ m ih =>
    have hb' : base + (start + (m - 1)) / 8 < 16 := by
      refine lt_of_le_of_lt (Nat.add_le_add_left (Nat.div_le_div_right ?_) _) hb
      omega
    rw [List.range_succ, List.foldl_append, List.foldl_cons, List.foldl_nil]
    have ih := ih (by omega) hb'
    split
    · next hc =>
      rw [getLsbD_entry_setBit _ _ _ _ _ (by simpa using hb), ih]
      by_cases heq : k = base + (start + m) / 8 ∧ e = (start + m) % 8
      · have h1 : 8 * k + e = 8 * base + start + m := by omega
        have h2 : 8 * k + e - (8 * base + start) = m := by omega
        have h3 : 8 * base + start ≤ 8 * k + e ∧ 8 * k + e < 8 * base + start + (m + 1) := by omega
        simp [heq.1, heq.2]
        simp only [← heq.1, ← heq.2, h2, hc]
        right
        simpa using h3
      · have h1 : 8 * k + e ≠ 8 * base + start + m := by omega
        have h2 : (8 * base + start ≤ 8 * k + e ∧ 8 * k + e < 8 * base + start + m) ↔
            (8 * base + start ≤ 8 * k + e ∧ 8 * k + e < 8 * base + start + (m + 1)) := by omega
        simp only [heq, decide_false, Bool.false_or, h2]
    · next hc =>
      rw [ih]
      by_cases h1 : 8 * k + e = 8 * base + start + m
      · have h2 : 8 * k + e - (8 * base + start) = m := by omega
        have hc : c.getLsbD m = false := by simpa using hc
        simp [h2, hc]
      · have h2 : (8 * base + start ≤ 8 * k + e ∧ 8 * k + e < 8 * base + start + m) ↔
            (8 * base + start ≤ 8 * k + e ∧ 8 * k + e < 8 * base + start + (m + 1)) := by omega
        simp only [h2]

/-- WRITE16LE on a byte. -/
theorem entry_write16le (ob : Vector Byte 16) (b k : Nat) (v : BitVec 16) :
    entry (write16le ob b v) k =
      if k = b + 1 ∧ k < 16 then v.extractLsb' 8 8
      else if k = b ∧ k < 16 then v.extractLsb' 0 8 else entry ob k := by
  simp only [write16le, entry_storeByte]

end Sys2Proof.Machine
end

