-- ==== Sys2Proof/Laws/PerInstr.lean ====
section
/-! SUPPORT. Per-instruction facts about the instructions as syntax. Family TableRow: the encoded words of an
instruction match the row of spec/opcode_table.json that bears its mnemonic. -/

namespace Sys2Proof.Laws.TableRow

/-- Match and mask of an instruction's row in spec/opcode_table.json; a BUS row reads the bus transaction word, a
CMD row the command word. -/
def row : Instr → Words × Words
  | .rdCmd => (.bus 0x000#9 0#32, .bus 0x1FF#9 0#32)
  | .wrCmd _ => (.bus 0x100#9 0#32, .bus 0x1FF#9 0#32)
  | .rdStatus => (.bus 0x004#9 0#32, .bus 0x1FF#9 0#32)
  | .rdPix _ => (.bus 0x040#9 0#32, .bus 0x1C3#9 0#32)
  | .wrPix _ _ => (.bus 0x140#9 0#32, .bus 0x1C3#9 0#32)
  | .rdOut _ => (.bus 0x080#9 0#32, .bus 0x1F3#9 0#32)
  | .encDxt1 _ _ _ _ => (.cmd 0x00000000#32, .cmd 0xFFFFE883#32)
  | .encDxt3 _ _ _ _ => (.cmd 0x00000001#32, .cmd 0xFFFFE883#32)
  | .encDxt5 _ _ _ _ => (.cmd 0x00000002#32, .cmd 0xFFFFE883#32)

/-- Words under a mask equal the match, on the word the row reads. -/
def matchesRow : Words → Words × Words → Prop
  | .bus bt _, (.bus m _, .bus k _) => bt &&& k = m
  | .cmd v, (.cmd m, .cmd k) => v &&& k = m
  | _, _ => False

/-- The encoded words match the opcode-table row. -/
def Statement (i : Instr) : Prop := matchesRow (encode i) (row i)

/-- A command word under the opcode mask is its MODE code (30_encoding.md R69). -/
theorem encodeCmd_and_opcodeMask (mode : Mode) (metric : Metric) (w h : BitVec 3) (pte : Bool) :
    encodeCmd mode metric w h pte &&& opcodeMask = (codeOfMode mode).setWidth 32 := by
  cases mode <;> cases metric <;> cases pte <;> revert w h <;> decide

theorem rdCmd : Statement .rdCmd := by
  show (0#1 ++ 0b00000000#8 : BitVec 9) &&& 0x1FF#9 = 0x000#9
  decide

theorem wrCmd (v : Word) : Statement (.wrCmd v) := by
  show (1#1 ++ 0b00000000#8 : BitVec 9) &&& 0x1FF#9 = 0x100#9
  decide

theorem rdStatus : Statement .rdStatus := by
  show (0#1 ++ 0b00000100#8 : BitVec 9) &&& 0x1FF#9 = 0x004#9
  decide

theorem rdPix (k : Fin 16) : Statement (.rdPix k) := by
  show (0#1 ++ 0b01#2 ++ BitVec.ofFin (w := 4) k ++ 0b00#2 : BitVec 9) &&& 0x1C3#9 = 0x040#9
  revert k; decide

theorem wrPix (k : Fin 16) (v : Word) : Statement (.wrPix k v) := by
  show (1#1 ++ 0b01#2 ++ BitVec.ofFin (w := 4) k ++ 0b00#2 : BitVec 9) &&& 0x1C3#9 = 0x140#9
  revert k; decide

theorem rdOut (i : Fin 4) : Statement (.rdOut i) := by
  show (0#1 ++ 0b1000#4 ++ BitVec.ofFin (w := 2) i ++ 0b00#2 : BitVec 9) &&& 0x1F3#9 = 0x080#9
  revert i; decide

theorem encDxt1 (metric : Metric) (w h : BitVec 3) (pte : Bool) : Statement (.encDxt1 metric w h pte) :=
  encodeCmd_and_opcodeMask .dxt1 metric w h pte

theorem encDxt3 (metric : Metric) (w h : BitVec 3) (pte : Bool) : Statement (.encDxt3 metric w h pte) :=
  encodeCmd_and_opcodeMask .dxt3 metric w h pte

theorem encDxt5 (metric : Metric) (w h : BitVec 3) (pte : Bool) : Statement (.encDxt5 metric w h pte) :=
  encodeCmd_and_opcodeMask .dxt5 metric w h pte

end Sys2Proof.Laws.TableRow
end

