-- ==== Sys2Proof/Laws/Search.lean ====
section
/-! SUPPORT. The best-pair search of both reducers (42_color_reducer.md R112): what its fold does, said once. -/

namespace Sys2Proof.Machine

theorem mem_pairs {n : Nat} {p : Nat × Nat} : p ∈ pairs n ↔ p.1 < p.2 ∧ p.2 < n := by
  obtain ⟨i, j⟩ := p
  simp only [pairs, List.mem_flatMap, List.mem_range, List.mem_map, Prod.mk.injEq]
  constructor
  · rintro ⟨i', hi, e, he, rfl, rfl⟩
    omega
  · rintro ⟨h1, h2⟩
    exact ⟨i, by omega, j - (i + 1), by omega, rfl, by omega⟩

/-- One visit keeps a best pair that carries its own cost. -/
theorem visit_cost (cost : Nat → Nat → Int) (b : BestPair) (p : Nat × Nat) (h : b.cost = cost b.i b.j) :
    (visit cost b p).cost = cost (visit cost b p).i (visit cost b p).j := by
  unfold visit
  split <;> simp [h]

/-- The fold's result carries its own cost, is the start or a visited pair, and costs no more than either. -/
theorem foldl_visit (cost : Nat → Nat → Int) (ps : List (Nat × Nat)) (b : BestPair) (h : b.cost = cost b.i b.j) :
    let r := ps.foldl (visit cost) b
    r.cost = cost r.i r.j ∧ (r = b ∨ (r.i, r.j) ∈ ps) ∧ r.cost ≤ b.cost ∧
      ∀ p ∈ ps, r.cost ≤ cost p.1 p.2 := by
  induction ps generalizing b with
  | nil => exact ⟨h, .inl rfl, le_refl _, by simp⟩
  | cons p ps ih =>
    obtain ⟨h1, h2, h3, h4⟩ := ih (visit cost b p) (visit_cost cost b p h)
    have hv : (visit cost b p).cost ≤ b.cost ∧ (visit cost b p).cost ≤ cost p.1 p.2 := by
      unfold visit
      split
      · exact ⟨by simp only; omega, le_refl _⟩
      · exact ⟨le_refl _, by omega⟩
    refine ⟨h1, ?_, le_trans h3 hv.1, ?_⟩
    · rcases h2 with h2 | h2
      · rw [List.foldl_cons, h2]
        unfold visit
        split
        · exact .inr (by simp)
        · exact .inl rfl
      · exact .inr (List.mem_cons_of_mem _ h2)
    · intro q hq
      rcases List.mem_cons.mp hq with rfl | hq
      · exact le_trans h3 hv.2
      · exact h4 q hq

/-- A best pair that no later pair beats strictly stays. -/
theorem foldl_visit_stays (cost : Nat → Nat → Int) (ps : List (Nat × Nat)) (b : BestPair)
    (h : ∀ p ∈ ps, ¬ cost p.1 p.2 < b.cost) : ps.foldl (visit cost) b = b := by
  induction ps with
  | nil => rfl
  | cons p ps ih =>
    have hp : visit cost b p = b := by simp [visit, h p (by simp)]
    rw [List.foldl_cons, hp]
    exact ih fun q hq => h q (by simp [hq])

/-- Two cost functions that agree on the pairs of [0, n) give the same search. -/
theorem search_congr {n : Nat} {c c' : Nat → Nat → Int} (h2 : 2 ≤ n)
    (h : ∀ i j, i < n → j < n → c i j = c' i j) : search n c = search n c' := by
  unfold search
  rw [h 0 1 (by omega) (by omega)]
  refine List.foldl_ext _ _ _ fun b p hp => ?_
  have := mem_pairs.mp hp
  simp [visit, h p.1 p.2 (by omega) (by omega)]

/-- The search's pair lies inside [0, n). -/
theorem search_bounds {n : Nat} (cost : Nat → Nat → Int) (h2 : 2 ≤ n) :
    (search n cost).i < n ∧ (search n cost).j < n := by
  obtain ⟨-, h, -, -⟩ := foldl_visit cost (pairs n) ⟨cost 0 1, 0, 1⟩ rfl
  unfold search
  rcases h with h | h
  · rw [h]; simp only; omega
  · have := mem_pairs.mp h
    simp only at this
    omega

end Sys2Proof.Machine
end

