-- ==== Sys2Proof/Laws/Step.lean ====
section
/-! SUPPORT. The inversion of one step: everything a step can do, said once. Invariants and whole-machine rules
are derived from it. -/

namespace Sys2Proof.Machine

/-- What a host's turn does to the state `s'` that has the turn taken. -/
inductive AccessEffect (a : Access) (s' t : State) : Prop where
  /-- BusError: no bus operation. -/
  | error (e : BusFault) (hd : decodeAccess a = .error e) (ht : t = s'.busError a.off)
  /-- A read. -/
  | read (i : Instr) (v : Word) (hd : decodeAccess a = .ok i)
      (hi : i = .rdCmd ∨ i = .rdStatus ∨ (∃ k, i = .rdPix k) ∨ ∃ j, i = .rdOut j)
      (ht : t = s'.reply (.data v))
  /-- WR.PIX. -/
  | writePix (k : Fin 16) (v : Word) (hd : decodeAccess a = .ok (.wrPix k v))
      (ht : t = (s'.writePix k v).reply .written)
  /-- WR.CMD. -/
  | writeCmd (v : Word) (hd : decodeAccess a = .ok (.wrCmd v)) (ht : t = (s'.writeCmd v).reply .written)

/-- What the encoder's turn does to the state `s'` that has the turn taken. -/
inductive EncoderEffect (s' t : State) : Prop where
  /-- IDLE: nothing. -/
  | idle (hb : s'.busy = false) (ht : t = s')
  /-- Completion of a command of legal size. -/
  | complete (mode : Mode) (ws : Vector Word 4) (hb : s'.busy = true)
      (hw : sizeOk (cmdW s'.hidden.snapCmd) = true) (hh : sizeOk (cmdH s'.hidden.snapCmd) = true)
      (ht : t = s'.complete ws)
  /-- A snapshot that is no legal command, in states no run reaches (log 8). -/
  | illegal (e : CmdError) (hb : s'.busy = true)
      (hs : (∃ f, decodeCmd s'.hidden.snapCmd = .error f) ∨
        (sizeOk (cmdW s'.hidden.snapCmd) && sizeOk (cmdH s'.hidden.snapCmd)) = false)
      (ht : t = s'.reject e)

theorem fetchAccess_effect {a : Access} {s' t : State}
    (h : (match fetchAccess a s' with | .run i u => exec i u | .done u => .next u) = .next t) :
    AccessEffect a s' t := by
  unfold fetchAccess at h
  cases hd : decodeAccess a with
  | error e =>
    rw [hd] at h
    exact .error e hd (Host.Outcome.next.inj h).symm
  | ok i =>
    rw [hd] at h
    have hd' : decodeBus a.bt a.data = .ok i := by
      unfold decodeAccess at hd
      split at hd
      · exact hd
      · cases hd
    rcases decodeBus_ok_cases hd' with rfl | rfl | rfl | ⟨k, rfl⟩ | ⟨k, rfl⟩ | ⟨j, rfl⟩
    · exact .read _ _ hd (by simp) (Host.Outcome.next.inj h).symm
    · exact .writeCmd _ hd (Host.Outcome.next.inj h).symm
    · exact .read _ _ hd (by simp) (Host.Outcome.next.inj h).symm
    · exact .read _ _ hd (by simp) (Host.Outcome.next.inj h).symm
    · exact .writePix k _ hd (Host.Outcome.next.inj h).symm
    · exact .read _ _ hd (by simp) (Host.Outcome.next.inj h).symm

theorem fetchCommand_effect {s' t : State}
    (h : (match fetchCommand s' with | .run i u => exec i u | .done u => .next u) = .next t) :
    EncoderEffect s' t := by
  unfold fetchCommand at h
  cases hb : s'.busy with
  | false =>
    rw [hb] at h
    exact .idle hb (Host.Outcome.next.inj h).symm
  | true =>
    rw [hb] at h
    cases hd : decodeCmd s'.hidden.snapCmd with
    | error e =>
      rw [hd] at h
      exact .illegal e hb (.inl ⟨e, hd⟩) (Host.Outcome.next.inj h).symm
    | ok i =>
      rw [hd] at h
      have key : ∀ mode metric pte, s'.runCommand mode metric (cmdW s'.hidden.snapCmd)
          (cmdH s'.hidden.snapCmd) pte = t → EncoderEffect s' t := by
        intro mode metric pte ht
        rcases runCommand_cases s' mode metric (cmdW s'.hidden.snapCmd) (cmdH s'.hidden.snapCmd) pte with
          ⟨hb', -⟩ | ⟨-, hw, hh, ws, hr⟩ | ⟨-, hs, hr⟩
        · rw [hb] at hb'; cases hb'
        · exact .complete mode ws hb hw hh (ht.symm.trans hr)
        · exact .illegal _ hb (.inr hs) (ht.symm.trans hr)
      rcases decodeCmd_ok_cases hd with rfl | rfl | rfl
      · exact key _ _ _ (Host.Outcome.next.inj h)
      · exact key _ _ _ (Host.Outcome.next.inj h)
      · exact key _ _ _ (Host.Outcome.next.inj h)

/-- Everything a step can do: a host's turn, an encoder's turn (or none left), or a reset. -/
theorem step_cases {s t : State} (h : step s = .next t) :
    (∃ a rest, s.turns = .access a :: rest ∧ AccessEffect a (s.withTurns rest) t) ∨
    (s.NextIsEncoder ∧ EncoderEffect (s.withTurns s.turns.tail) t) ∨
    (∃ rest, s.turns = .reset :: rest ∧ t = (s.withTurns rest).platformReset) := by
  unfold step fetch at h
  cases ht : s.turns with
  | nil =>
    rw [ht] at h
    have hs : s.withTurns [] = s := by rw [← ht]; rfl
    refine .inr (.inl ⟨.inl ht, ?_⟩)
    rw [List.tail_nil, hs]
    exact fetchCommand_effect h
  | cons x rest =>
    rw [ht] at h
    cases x with
    | access a => exact .inl ⟨a, rest, rfl, fetchAccess_effect h⟩
    | encoder => exact .inr (.inl ⟨.inr ⟨rest, ht⟩, fetchCommand_effect h⟩)
    | reset => exact .inr (.inr ⟨rest, rfl, (Host.Outcome.next.inj h).symm⟩)

/-- A run of one step more takes that step first. -/
theorem run_core_step (M : Host.Core) {s t : M.State} (n : Nat) (h : M.step s = .next t) :
    M.run (n + 1) s = M.run n t := by
  rw [Host.Core.run, h]

theorem run_step {s t : State} (n : Nat) (h : step s = .next t) :
    Host.Core.run core (n + 1) s = Host.Core.run core n t :=
  run_core_step core n h

end Sys2Proof.Machine
end

