-- ==== Sys2Proof/Machine/HostSide.lean ====
section
/-! DEFINITION. The host's side of the window: where it stands (20_memory.md R41), and the assembler lines and
pseudo-operations of 30_encoding.md R72 to R74, each with the bus accesses it stands for. Nothing here is run by
DXTE: an access list is what a host puts into the queue of turns. -/

namespace Sys2Proof.Machine

/-! ### The window in the host's address space -/

/-- The access a host's read or write at an address makes: "The register window is 256 bytes at host address
DXTE_BASE" (20_memory.md R41); `base` is the parameter DXTE_BASE. An address outside the window is none of DXTE's. -/
def windowAccess (base addr width : Nat) (we : Bool) (data : Word) : Option Access :=
  if base ≤ addr ∧ addr < base + 256 then
    some ⟨width, BitVec.ofBool we ++ BitVec.ofNat 8 (addr - base), data⟩
  else none

/-- A 32-bit read at a window offset, `BusRead(off)` (20_memory.md R42). -/
def busRead (off : BitVec 8) : Access := ⟨32, 0#1 ++ off, 0#32⟩

/-- A 32-bit write at a window offset, `BusWrite(off, v)` (20_memory.md R42). -/
def busWrite (off : BitVec 8) (v : Word) : Access := ⟨32, 1#1 ++ off, v⟩

/-! ### Assembler lines (30_encoding.md R72, R73) -/

/-- `rgba(r, g, b, a)`, meaning `r | g<<8 | b<<16 | a<<24` (30_encoding.md R73). -/
def rgba (r g b a : Byte) : Word := a ++ b ++ g ++ r

/-- The operand of `WR CMD`: a command in the syntax of 30_encoding.md R72 or a 32-bit value. -/
inductive CmdOperand where
  | command (mode : Mode) (metric : Metric) (w h : BitVec 3) (pte : Bool)
  | value (v : Word)
  deriving DecidableEq, Repr

/-- One line of a host program (30_encoding.md R73); a read carries the name its result is written to. -/
inductive HostLine where
  | wrCmd (c : CmdOperand)
  | rdCmd (name : String)
  | rdStatus (name : String)
  | wrPix (k : Fin 16) (v : Word)
  | rdPix (k : Fin 16) (name : String)
  | rdOut (i : Fin 4) (name : String)
  deriving DecidableEq, Repr

/-- The command word of an operand; `pte` "is accepted only with DXT1" (30_encoding.md R72). -/
def cmdOperandWord : CmdOperand → Option Word
  | .command mode metric w h pte =>
    if pte = true ∧ mode ≠ .dxt1 then none else some (encodeCmd mode metric w h pte)
  | .value v => some v

/-- The bus access of a line: the words of its bus operation (30_encoding.md R62). -/
def lineAccess : HostLine → Option Access
  | .wrCmd c => (cmdOperandWord c).map (busWrite 0x00#8)
  | .rdCmd _ => some (busRead 0x00#8)
  | .rdStatus _ => some (busRead 0x04#8)
  | .wrPix k v => some (busWrite (0b01#2 ++ BitVec.ofFin (w := 4) k ++ 0b00#2) v)
  | .rdPix k _ => some (busRead (0b01#2 ++ BitVec.ofFin (w := 4) k ++ 0b00#2))
  | .rdOut i _ => some (busRead (0b1000#4 ++ BitVec.ofFin (w := 2) i ++ 0b00#2))

/-! ### The text of a line -/

/-- The name of a mode in the command syntax (30_encoding.md R72). -/
def modeText : Mode → String
  | .dxt1 => "DXT1"
  | .dxt3 => "DXT3"
  | .dxt5 => "DXT5"

/-- The name of a metric in the command syntax (30_encoding.md R72). -/
def metricText : Metric → String
  | .rgb => "RGB"
  | .srgb => "SRGB"
  | .yuv => "YUV"
  | .avg => "AVG"

/-- A 32-bit value in hexadecimal (00_scope.md section 4). -/
def wordText (v : Word) : String := "0x" ++ v.toHex

/-- `ENC.<mode>.<metric> <W>x<H>[, pte]` (30_encoding.md R72), or the value. -/
def cmdOperandText : CmdOperand → String
  | .command mode metric w h pte =>
    "ENC." ++ modeText mode ++ "." ++ metricText metric ++ " " ++ toString w.toNat ++ "x" ++ toString h.toNat ++
      (if pte then ", pte" else "")
  | .value v => wordText v

/-- A line as 30_encoding.md R73 writes it. -/
def lineText : HostLine → String
  | .wrCmd c => "WR CMD, " ++ cmdOperandText c
  | .rdCmd name => "RD CMD -> " ++ name
  | .rdStatus name => "RD STATUS -> " ++ name
  | .wrPix k v => "WR PIX[" ++ toString k.val ++ "], " ++ wordText v
  | .rdPix k name => "RD PIX[" ++ toString k.val ++ "] -> " ++ name
  | .rdOut i name => "RD OUT[" ++ toString i.val ++ "] -> " ++ name

/-! ### Pseudo-operations (30_encoding.md R74) -/

/-- `LOAD_BLOCK W, H, p`: `WR PIX[x + 4*y], p[y*W + x]`, row by row. Two points are the
model's choice (DESIGN CHOICE, log 17): a pixel p does not give is written 0, and where x + 4*y is 16 or more (H above
4, say), which names no PIX register and on which the spec is silent, the slot number wraps modulo 16. -/
def loadBlock (w h : Nat) (p : List Word) : List HostLine :=
  (List.range h).flatMap fun y => (List.range w).map fun x =>
    .wrPix (Fin.ofNat 16 (x + 4 * y)) (p[y * w + x]?.getD 0#32)

/-- `WAIT_DONE -> s` of a run that polls `polls` times: `RD STATUS -> s`, "repeated while s[1] = 0". The number of
polls is not fixed (70_reset_and_hazards.md R209): it is the run's. -/
def waitDone (polls : Nat) (name : String) : List HostLine := List.replicate polls (.rdStatus name)

/-- Whether a STATUS value ends WAIT_DONE: s[1] = 1. -/
def waitDoneEnds (status : Word) : Bool := status.getLsbD 1

/-- `READ_BLOCK -> o`: the four RD OUT lines. -/
def readBlock (name : String) : List HostLine :=
  [.rdOut 0 (name ++ "[0]"), .rdOut 1 (name ++ "[1]"), .rdOut 2 (name ++ "[2]"), .rdOut 3 (name ++ "[3]")]

/-- `ENCODE <command>, W, H, p -> s, o`: LOAD_BLOCK, WR CMD, WAIT_DONE, READ_BLOCK. -/
def encodeProgram (c : CmdOperand) (w h : Nat) (p : List Word) (polls : Nat) (status out : String) : List HostLine :=
  loadBlock w h p ++ [.wrCmd c] ++ waitDone polls status ++ readBlock out

/-- The turns a list of lines puts into the queue; a line that is no line of the syntax puts none. -/
def lineTurns (ls : List HostLine) : List Turn := (ls.filterMap lineAccess).map .access

end Sys2Proof.Machine
end

