-- ==== Sys2Proof/Tests/Slice0.lean ====
section
/-! SUPPORT. Tests of the model. Expected values are the spec's: 95_test_vectors.md, the examples of the rules, and
words written out from the encodings of 30_encoding.md. A `witness_<Name>` meets the hypotheses of
`Obligations.<Name>`, clause by clause. -/

namespace Sys2Proof.Tests

open Sys2Proof Sys2Proof.Machine

/-! ### Small states -/

/-- An idle machine whose valid flags are pv and whose pixels are those listed, the others 0. -/
def idle (pv : BitVec 16) (pixels : List (Fin 16 × Word)) : State :=
  { State.reset with
    pv := pv
    pix := pixels.foldl (fun p e => p.set e.1 e.2) State.reset.pix }

/-- The machine after acceptance of v, every slot valid, with the given turns. -/
def running (v : Word) (turns : List Turn) : State :=
  { State.reset with
    cmd := v
    busy := true
    pv := 0xFFFF#16
    hidden := ⟨v, State.reset.pix, Work.zero⟩
    turns := turns }

/-- The machine after a completed command and a dropped one, with the given turns. -/
def finished (turns : List Turn) : State :=
  { State.reset with
    cmd := 0x0000044C#32
    done := true
    drop := true
    pv := 0xFFFF#16
    turns := turns }

/-- The OUT words of a command word on pixels at positions, with the default parameters. -/
def outOf (mode : Mode) (v : Word) (pixels : List (Fin 16 × Word)) : Vector Word 4 :=
  outWords (encodeBlock Config.defaults ⟨mode, metricOfCode (cmdMetric v), (cmdW v).toNat, (cmdH v).toNat, cmdPte v⟩
    (idle 0#16 pixels).pix Work.zero)

/-- Working state with the given colours and alphas as samples 0, 1, 2, ... -/
def workOf (cs : List Color) (as : List Byte) : Work :=
  { Work.zero with
    c := Vector.ofFn fun k : Fin 16 => cs[k.val]?.getD ⟨0#8, 0#8, 0#8⟩
    a := Vector.ofFn fun k : Fin 16 => as[k.val]?.getD 0#8 }

/-! ### WellFormed refuses ill-formed terms (30_encoding.md R66) -/

theorem test_wf_refuses_w_zero : (Instr.encDxt1 .avg 0#3 4#3 false).wf = false := by decide
theorem test_wf_refuses_h_five : (Instr.encDxt1 .avg 4#3 5#3 false).wf = false := by decide
theorem test_wf_dxt3_refuses_w_seven : (Instr.encDxt3 .rgb 7#3 1#3 false).wf = false := by decide
theorem test_wf_dxt3_refuses_h_zero : (Instr.encDxt3 .rgb 1#3 0#3 false).wf = false := by decide
theorem test_wf_dxt5_refuses_w_six : (Instr.encDxt5 .yuv 6#3 1#3 false).wf = false := by decide
theorem test_wf_dxt5_refuses_h_six : (Instr.encDxt5 .yuv 1#3 6#3 false).wf = false := by decide
theorem test_wf_accepts_both_ends :
    Instr.WellFormed (.encDxt1 .avg 1#3 4#3 true) ∧ Instr.WellFormed (.encDxt3 .avg 4#3 1#3 true) ∧
      Instr.WellFormed (.encDxt5 .avg 4#3 4#3 true) := by decide

/-! ### Decoding: words written out bit by bit (30_encoding.md R61 to R63) -/

theorem test_decode_rdCmd : decodeBus 0b0_00000000#9 0#32 = .ok .rdCmd := by decide
theorem test_decode_wrCmd : decodeBus 0b1_00000000#9 0x44C#32 = .ok (.wrCmd 0x44C#32) := by decide
theorem test_decode_rdStatus : decodeBus 0b0_00000100#9 0#32 = .ok .rdStatus := by decide
theorem test_decode_rdPix : decodeBus 0b0_01_1010_00#9 0#32 = .ok (.rdPix 10) := by decide
theorem test_decode_wrPix : decodeBus 0b1_01_0101_00#9 7#32 = .ok (.wrPix 5 7#32) := by decide
theorem test_decode_rdOut : decodeBus 0b0_1000_10_00#9 0#32 = .ok (.rdOut 2) := by decide
/-- Pattern of R63: P = 1, hhh = 011, www = 010, mm = 01, dd = 00. -/
theorem test_decode_encDxt1 :
    decodeCmd 0b0000000000000000000_1_0_011_0_010_01_00#32 = .ok (.encDxt1 .srgb 2#3 3#3 true) := by decide
/-- P = 0, hhh = 010, www = 011, mm = 00, dd = 01. -/
theorem test_decode_encDxt3 :
    decodeCmd 0b0000000000000000000_0_0_010_0_011_00_01#32 = .ok (.encDxt3 .rgb 3#3 2#3 false) := by decide
/-- P = 0, hhh = 001, www = 100, mm = 10, dd = 10. -/
theorem test_decode_encDxt5 :
    decodeCmd 0b0000000000000000000_0_0_001_0_100_10_10#32 = .ok (.encDxt5 .yuv 4#3 1#3 false) := by decide

/-- The BusError rows of 95_test_vectors.md 2.1. -/
theorem test_decode_busErrors :
    decodeBus 0x104#9 0#32 = .error .readOnly ∧ decodeBus 0x006#9 0#32 = .error .misaligned ∧
    decodeBus 0x008#9 0#32 = .error .reservedOffset ∧ decodeBus 0x03C#9 0#32 = .error .reservedOffset ∧
    decodeBus 0x180#9 0#32 = .error .readOnly ∧ decodeBus 0x090#9 0#32 = .error .reservedOffset ∧
    decodeBus 0x0FC#9 0#32 = .error .reservedOffset := by decide

/-- The operation rows of 95_test_vectors.md 2.1. -/
theorem test_decode_busOperations :
    decodeBus 0x040#9 0#32 = .ok (.rdPix 0) ∧ decodeBus 0x154#9 1#32 = .ok (.wrPix 5 1#32) ∧
    decodeBus 0x07C#9 0#32 = .ok (.rdPix 15) ∧ decodeBus 0x17C#9 1#32 = .ok (.wrPix 15 1#32) ∧
    decodeBus 0x080#9 0#32 = .ok (.rdOut 0) ∧ decodeBus 0x08C#9 0#32 = .ok (.rdOut 3) := by decide

/-- A 16-bit read of 0x00 is an error of width (95_test_vectors.md 2.1, 20_memory.md R43). -/
theorem test_decode_width : decodeAccess ⟨16, 0x000#9, 0#32⟩ = .error .width := by decide

theorem test_decode_commandErrors :
    decodeCmd 0x00010444#32 = .error .reservedBits ∧ decodeCmd 0x00000083#32 = .error .reservedBits ∧
    decodeCmd 0x00000803#32 = .error .reservedBits ∧ decodeCmd 0x00000447#32 = .error .reservedMode := by decide

/-- The host's question: each row's word, its operand bits 0 but where a value is given. -/
theorem test_decodeTableWord :
    decodeTableWord 16 0x000 = some .rdCmd ∧ decodeTableWord 16 0x100 = some (.wrCmd 0#32) ∧
    decodeTableWord 16 0x004 = some .rdStatus ∧ decodeTableWord 16 0x07C = some (.rdPix 15) ∧
    decodeTableWord 16 0x17C = some (.wrPix 15 0#32) ∧ decodeTableWord 16 0x08C = some (.rdOut 3) ∧
    decodeTableWord 32 0x00000000 = some (.encDxt1 .rgb 0#3 0#3 false) ∧
    decodeTableWord 32 0x0000044D = some (.encDxt3 .avg 4#3 4#3 false) ∧
    decodeTableWord 32 0x00000446 = some (.encDxt5 .srgb 4#3 4#3 false) ∧
    decodeTableWord 32 0x00000003 = none ∧ decodeTableWord 16 0x104 = none := by decide

/-! ### withFetchWord: the very next step runs the word -/

theorem test_fetch_busWord : fetch (State.reset.withFetchWord 16 0x07C) = .run (.rdPix 15) State.reset := by decide
theorem test_fetch_commandWord : ∃ s, fetch (State.reset.withFetchWord 32 0x0000011C) =
    .run (.encDxt1 .avg 1#3 1#3 false) s ∧ s.busy = true ∧ s.pix = State.reset.pix := ⟨_, rfl, rfl, rfl⟩

/-! ### Bus operations, one step each -/

theorem test_rdCmd : ∃ t, step { running 0x116#32 [] with turns := [.access ⟨32, 0x000#9, 0#32⟩] } = .next t ∧
    t.replies = [.data 0x116#32] := ⟨_, rfl, by decide⟩
/-- 95_test_vectors.md 2.9: BUSY with every slot valid reads 0xFFFF0001. -/
theorem test_rdStatus : ∃ t, exec .rdStatus (running 0x0000044C#32 []) = .next t ∧
    t.replies = [.data 0xFFFF0001#32] := ⟨_, rfl, by decide⟩
/-- A dropped command on top of a finished one: 0xFFFF0102. -/
theorem test_rdStatus_drop : (finished []).statusWord = 0xFFFF0102#32 := by decide
theorem test_wrPix : ∃ t, exec (.wrPix 5 0xFF0000FF#32) State.reset = .next t ∧ t.pv = 0x0020#16 ∧
    t.pix[5] = 0xFF0000FF#32 := ⟨_, rfl, by decide, by decide⟩
/-- An unwritten slot reads 0 whatever stands in it (10_state.md R25). -/
theorem test_rdPix_unwritten : ∃ t, exec (.rdPix 3) (idle 0xFFF7#16 [(3, 9#32)]) = .next t ∧
    t.replies = [.data 0#32] := ⟨_, rfl, by decide⟩
theorem test_rdPix_written : ∃ t, exec (.rdPix 3) (idle 0x0008#16 [(3, 9#32)]) = .next t ∧
    t.replies = [.data 9#32] := ⟨_, rfl, by decide⟩
theorem test_rdOut : ∃ t, exec (.rdOut 1) { State.reset with out := ⟨#[1#32, 2#32, 3#32, 4#32], rfl⟩ } = .next t ∧
    t.replies = [.data 2#32] := ⟨_, rfl, by decide⟩
theorem test_busError_keeps_state :
    step { finished [] with turns := [.access ⟨32, 0x184#9, 5#32⟩] } =
      .next { finished [] with replies := [.busError 0x84#8] } := rfl

/-- CHECK and the STATUS after it, in the order of the table of 95_test_vectors.md 2.9. -/
theorem test_wrCmd_status_table :
    ([(0xFFFF#16, 0x0000044C#32), (0xFFFF#16, 0x00010444#32), (0xFFFF#16, 0x00000083#32),
      (0xFFFF#16, 0x00000803#32), (0xFFFF#16, 0x00000447#32), (0xFFFF#16, 0x00000003#32),
      (0xFFFF#16, 0x00000000#32), (0xFFFF#16, 0x00000400#32), (0xFFFF#16, 0x00000450#32),
      (0xFFFF#16, 0x0000074C#32), (0x0001#16, 0x0000012C#32), (0x0001#16, 0x0000011C#32),
      (0x7FFF#16, 0x0000144C#32), (0xFFFF#16, 0x00001446#32)].map
        fun e => ((idle e.1 []).writeCmd e.2).statusWord) =
    [0xFFFF0001#32, 0xFFFF0032#32, 0xFFFF0032#32, 0xFFFF0032#32, 0xFFFF0022#32, 0xFFFF0022#32, 0xFFFF0012#32,
      0xFFFF0012#32, 0xFFFF0012#32, 0xFFFF0012#32, 0x00010042#32, 0x00010001#32, 0x7FFF0042#32,
      0xFFFF0001#32] := by decide

/-- A WR.CMD while BUSY: STATUS 0xFFFF0101, CMD kept (95_test_vectors.md 2.9). -/
theorem test_wrCmd_dropped :
    ((running 0x0000044C#32 []).writeCmd 0x11C#32).statusWord = 0xFFFF0101#32 ∧
    ((running 0x0000044C#32 []).writeCmd 0x11C#32).cmd = 0x0000044C#32 := by decide

/-- The completion step, seen from the bus: 0xFFFF0002. -/
theorem test_completion_status : ∃ t, step (running 0x0000011C#32 []) = .next t ∧
    t.statusWord = 0xFFFF0002#32 := ⟨_, rfl, by decide⟩

/-! ### The encode function on the spec's vectors -/

/-- 95_test_vectors.md 2.2. -/
theorem test_shrr :
    shrr 5 ⟨1, by decide⟩ = 3 ∧ shrr (-1) ⟨1, by decide⟩ = 0 ∧ shrr (-3) ⟨1, by decide⟩ = -1 ∧
    shrr (-12) ⟨3, by decide⟩ = -1 ∧ shrr 12 ⟨3, by decide⟩ = 2 ∧ shrr (-9) ⟨4, by decide⟩ = -1 := by decide

/-- 95_test_vectors.md 2.3, rows 2, 5 and 8. -/
theorem test_distances :
    ([Metric.avg, .yuv, .rgb, .srgb].map
      fun m => dist Config.defaults m ⟨255#8, 255#8, 255#8⟩ ⟨0#8, 0#8, 0#8⟩) =
        [195075, 2630891180, 2197503619, 79696982421] ∧
    ([Metric.avg, .yuv, .rgb, .srgb].map
      fun m => dist Config.defaults m ⟨255#8, 0#8, 0#8⟩ ⟨0#8, 0#8, 255#8⟩) =
        [130050, 640496250, 563035219, 36503964879] ∧
    ([Metric.avg, .yuv, .rgb, .srgb].map
      fun m => dist Config.defaults m ⟨128#8, 64#8, 32#8⟩ ⟨120#8, 70#8, 40#8⟩) =
        [164, 505217, 626304, 21602682] := by decide +kernel

/-- The argument order under SRGB: (1,2) with cost 1853, endpoints (0,0,0) and (6,3,6) (95_test_vectors.md 2.5). -/
theorem test_reduceColor_srgb_argument_order :
    let r := reduceColor Config.defaults .srgb 3
      (workOf [⟨1#8, 5#8, 0#8⟩, ⟨0#8, 0#8, 0#8⟩, ⟨6#8, 3#8, 6#8⟩] [])
    r.best = ⟨1853, 1, 2⟩ ∧ r.color0 = ⟨0#8, 0#8, 0#8⟩ ∧ r.color1 = ⟨6#8, 3#8, 6#8⟩ := by decide +kernel

/-- Three pairs of equal cost: the first wins (95_test_vectors.md 2.5). -/
theorem test_reduceColor_first_pair_wins :
    (reduceColor Config.defaults .avg 3 (workOf [⟨0#8, 0#8, 0#8⟩, ⟨10#8, 0#8, 0#8⟩, ⟨20#8, 0#8, 0#8⟩] [])).best =
      ⟨100, 0, 1⟩ := by decide +kernel

/-- [10, 200, 90, 250]: pair (1,2) swapped to 90, 200 (95_test_vectors.md 2.6). -/
theorem test_reduceAlpha_swapped :
    let r := reduceAlpha 4 (workOf [] [10#8, 200#8, 90#8, 250#8])
    r.alpha0 = 90#8 ∧ r.alpha1 = 200#8 := by decide +kernel

/-- [0, 255, 60, 70]: the virtual candidates 0 and 255 cover two samples (95_test_vectors.md 2.6). -/
theorem test_reduceAlpha_virtual :
    let r := reduceAlpha 4 (workOf [] [0#8, 255#8, 60#8, 70#8])
    r.alpha0 = 60#8 ∧ r.alpha1 = 70#8 := by decide +kernel

/-- The priority among equal distances (95_test_vectors.md 2.7.4). -/
theorem test_acode :
    acode 10#8 200#8 5#8 = 0#3 ∧ acode 10#8 200#8 105#8 = 1#3 ∧ acode 10#8 200#8 230#8 = 7#3 ∧
    acode 50#8 50#8 50#8 = 1#3 ∧ acode 0#8 255#8 255#8 = 1#3 ∧ acode 100#8 200#8 1#8 = 6#3 := by decide

/-- A code that crosses a byte: code 7 at position 2 (95_test_vectors.md 2.7.5). -/
theorem test_writeCode_crosses_byte :
    let ob := writeCode 2 2 7#3 (Vector.replicate 16 0#8)
    entry ob 2 = 0xC0#8 ∧ entry ob 3 = 0x01#8 ∧ entry ob 4 = 0#8 := by decide

/-- Program P1's block (95_test_vectors.md 1.2). -/
theorem test_encDxt1_checkerboard :
    outOf .dxt1 0x0000022C#32 [(0, 0xFF0000FF#32), (1, 0xFFFF0000#32), (4, 0xFFFF0000#32), (5, 0xFF0000FF#32)] =
      ⟨#[0x001FF800#32, 0x00000104#32, 0#32, 0#32], rfl⟩ := by decide +kernel

/-- The 2x1 block whose packed endpoints are in reversed order (95_test_vectors.md 2.7.2). -/
theorem test_encDxt1_reversed_565 :
    outOf .dxt1 0x0000012C#32 [(0, 0xFF00FF08#32), (1, 0xFF000009#32)] =
      ⟨#[0x0FE00800#32, 0x00000001#32, 0#32, 0#32], rfl⟩ := by decide +kernel

/-- A uniform 1x1 DXT3 block; the alpha nibble and RGB565 by hand from 44_block_packer.md R133, R143, R144. -/
theorem test_encDxt3_one_pixel :
    outOf .dxt3 0x0000011D#32 [(0, 0xA7204080#32)] =
      ⟨#[0x0000000A#32, 0#32, 0x82048204#32, 0#32], rfl⟩ := by decide +kernel

/-- 95_test_vectors.md 2.8, the 4x1 DXT5 block. -/
theorem test_encDxt5_four_by_one :
    outOf .dxt5 0x0000014E#32
      [(0, rgba 10#8 10#8 10#8 0#8), (1, rgba 20#8 20#8 20#8 255#8), (2, rgba 200#8 200#8 200#8 60#8),
        (3, rgba 210#8 210#8 210#8 70#8)] =
      ⟨#[0x023E463C#32, 0#32, 0x0841CE59#32, 0x00000005#32], rfl⟩ := by decide +kernel

/-- 95_test_vectors.md 2.8, the 1x1 DXT5 block under SRGB. -/
theorem test_encDxt5_one_pixel :
    outOf .dxt5 0x00000116#32 [(0, rgba 9#8 8#8 7#8 128#8)] =
      ⟨#[0x00018080#32, 0#32, 0x08400840#32, 0#32], rfl⟩ := by decide +kernel

/-! ### The host's side (30_encoding.md R72 to R74) -/

theorem test_syntax_examples :
    cmdOperandWord (.command .dxt1 .avg 4#3 4#3 true) = some 0x0000144C#32 ∧
    cmdOperandWord (.command .dxt5 .srgb 4#3 4#3 false) = some 0x00000446#32 ∧
    cmdOperandWord (.command .dxt3 .yuv 3#3 2#3 false) = some 0x00000239#32 ∧
    cmdOperandWord (.command .dxt5 .srgb 4#3 4#3 true) = none := by decide

theorem test_loadBlock_positions :
    lineTurns (loadBlock 2 2 [1#32, 2#32, 3#32, 4#32]) =
      [.access ⟨32, 0x140#9, 1#32⟩, .access ⟨32, 0x144#9, 2#32⟩, .access ⟨32, 0x150#9, 3#32⟩,
        .access ⟨32, 0x154#9, 4#32⟩] := by decide

theorem test_window_ends :
    windowAccess 0x1000 0x10FF 32 true 1#32 = some ⟨32, 0x1FF#9, 1#32⟩ ∧
    windowAccess 0x1000 0x1100 32 true 1#32 = none := by decide

/-! ### Witnesses: bus operations -/

theorem witness_ReadCmdReturnsLastStoredWord : (finished []).busy = false := by decide

/-- A state with BUSY = 1 that meets the invariant. -/
theorem running_inv (turns : List Turn) : (running 0x0000044C#32 turns).Inv where
  busy_not_done _ := rfl
  err_known := show (0#4).toNat ≤ 4 by decide
  err_done h := absurd rfl h
  drop_cmd _ := .inl rfl
  snap_cmd _ := rfl
  snap_legal _ := show LegalCommand 0x0000044C#32 from ⟨by decide, by decide, by decide, by decide⟩
  snap_valid _ := show ∀ pos ∈ cmdPositions 0x0000044C#32, (0xFFFF#16).getLsbD pos = true by decide
  fresh h := nomatch h

/-- An idle state with DROP = 1 that meets the invariant. -/
theorem finished_inv (turns : List Turn) : (finished turns).Inv where
  busy_not_done h := nomatch h
  err_known := show (0#4).toNat ≤ 4 by decide
  err_done h := absurd rfl h
  drop_cmd _ := .inr rfl
  snap_cmd h := nomatch h
  snap_legal h := nomatch h
  snap_valid h := nomatch h
  fresh _ h := nomatch h

theorem witness_ReadStatusReturnsFieldsWithoutClearing : ∃ s : State, s.Inv ∧ s.busy = true :=
  ⟨_, running_inv [], rfl⟩

/-- The hypotheses of the last clause, at 1x1 and 4x4. -/
theorem witness_ReadOutReturnsLastResult :
    (running 0x0000011C#32 []).busy = true ∧ sizeOk 1#3 = true ∧ sizeOk 4#3 = true := by decide

theorem witness_ReadsHaveNoSideEffect : ∃ i : Instr,
    i = .rdCmd ∨ i = .rdStatus ∨ (∃ k, i = .rdPix k) ∨ ∃ j, i = .rdOut j := ⟨.rdPix 15, by simp⟩

theorem witness_WriteCmdAcceptsCheckedWord :
    (idle 0xFFFF#16 []).busy = false ∧ (idle 0xFFFF#16 []).check 0x0000044C#32 = none := by decide

/-- One word for each error. -/
theorem witness_WriteCmdRejectsWithErrorCode :
    (idle 1#16 []).busy = false ∧ (idle 1#16 []).check 0x80000000#32 = some .reservedBits ∧
    (idle 1#16 []).check 0x00000003#32 = some .reservedMode ∧
    (idle 1#16 []).check 0x00000150#32 = some .invalidBlockSize ∧
    (idle 1#16 []).check 0x0000012C#32 = some .unwrittenPixel := by decide

/-- A dropped write; and a step that clears DROP (the next non-dropped WR.CMD). -/
theorem witness_WriteCmdWhileBusyIsDropped :
    (running 0x0000044C#32 []).busy = true ∧
    ∃ s t : State, s.Inv ∧ step s = .next t ∧ s.drop = true ∧ t.drop = false :=
  ⟨rfl, finished [.access ⟨32, 0x100#9, 0x0000044C#32⟩], _, finished_inv _, rfl, by decide, by decide⟩

/-- Every outcome of CHECK occurs, at the ends of the ranges: bits 7 and 31; W = 0, 1, 4, 5; slot 15. -/
theorem witness_CheckReportsFirstFailingCheck :
    (idle 0xFFFF#16 []).check 0x00000083#32 = some .reservedBits ∧
    (idle 0xFFFF#16 []).check 0x80000000#32 = some .reservedBits ∧
    (idle 0xFFFF#16 []).check 0x00000003#32 = some .reservedMode ∧
    (idle 0xFFFF#16 []).check 0x00000400#32 = some .invalidBlockSize ∧
    (idle 0xFFFF#16 []).check 0x00000450#32 = some .invalidBlockSize ∧
    (idle 0x7FFF#16 []).check 0x0000044C#32 = some .unwrittenPixel ∧
    (idle 0x0001#16 []).check 0x0000011C#32 = none ∧ (idle 0xFFFF#16 []).check 0x0000044C#32 = none := by decide

/-- Both alternatives occur. -/
theorem witness_NoStaleDoneAfterWriteCmd :
    (finished []).busy = false ∧ ((finished []).writeCmd 0x44C#32).busy = true ∧
    ((finished []).writeCmd 0x3#32).err = 2#4 := by decide

/-! ### Witnesses: encode commands -/

theorem witness_EncDxt1CompletesWithEightBytes :
    (running 0x0000011C#32 []).busy = true ∧ sizeOk 1#3 = true ∧ sizeOk 4#3 = true := by decide
theorem witness_EncDxt3CompletesWithSixteenBytes :
    (running 0x0000011D#32 []).busy = true ∧ sizeOk 1#3 = true ∧ sizeOk 4#3 = true := by decide
theorem witness_EncDxt5CompletesWithSixteenBytes :
    (running 0x0000011E#32 []).busy = true ∧ sizeOk 1#3 = true ∧ sizeOk 4#3 = true := by decide
theorem witness_EncCommandsOutsideTheirEnable :
    (finished []).busy = false ∧ (running 0#32 []).busy = true ∧
    (Instr.encDxt1 .avg 0#3 1#3 false).wf = false ∧ (Instr.encDxt5 .avg 1#3 5#3 false).wf = false := by decide

/-! ### Witnesses: the encode function -/

theorem witness_RoundingShiftIsFloorOfHalfAdded :
    ∃ a b c : Config.ShiftCount, a.val = 1 ∧ b.val = 3 ∧ c.val = 4 :=
  ⟨⟨1, by decide⟩, ⟨3, by decide⟩, ⟨4, by decide⟩, rfl, rfl, rfl⟩
theorem witness_AvgAndLumaDistancesSymmetric : Metric.yuv ≠ .srgb := by decide
theorem witness_DistancesSeparateColours : (⟨0#8, 0#8, 0#8⟩ : Color) ≠ ⟨0#8, 0#8, 1#8⟩ := by decide
theorem witness_PairCostsFitFortyOneBits : ∃ n i j : Nat, n ≤ 16 ∧ i < n ∧ j < n := ⟨16, 15, 15, by decide⟩
theorem witness_SamplesNumberUsedPositionsRowMajor : ∃ w h : Nat, 1 ≤ w ∧ w ≤ 4 ∧ 1 ≤ h ∧ h ≤ 4 := ⟨1, 4, by decide⟩
/-- A slot that is written and one that is not, in a 3x2 block. -/
theorem witness_CollectGathersClippedBlock :
    ∃ w h k k' : Nat, 1 ≤ w ∧ w ≤ 4 ∧ 1 ≤ h ∧ h ≤ 4 ∧ k < 16 ∧ k < w * h ∧ k' < 16 ∧ ¬ k' < w * h :=
  ⟨3, 2, 5, 6, by decide⟩
theorem witness_SearchSelectsFirstLeastCostPair : ∃ n i j : Nat, 2 ≤ n ∧ i < j ∧ j < n := ⟨2, 0, 1, by decide⟩
theorem witness_ColorReducerPicksFirstLeastPair : ∃ n i j : Nat, 2 ≤ n ∧ n ≤ 16 ∧ i < j ∧ j < n :=
  ⟨16, 14, 15, by decide⟩
theorem witness_TwoColourBlockKeepsItsColours :
    let a : Color := ⟨255#8, 0#8, 0#8⟩
    let b : Color := ⟨0#8, 0#8, 255#8⟩
    let wk := workOf [a, b, b, a] []
    (a ≠ b ∧ (∀ k, k < 4 → entry wk.c k = a ∨ entry wk.c k = b) ∧ (∃ k, k < 4 ∧ entry wk.c k = a) ∧
      ∃ k, k < 4 ∧ entry wk.c k = b) ∧ ∀ k, k < 1 → entry wk.c k = a :=
  ⟨⟨by decide, by decide, ⟨0, by decide⟩, ⟨1, by decide⟩⟩, by decide⟩
theorem witness_AlphaReducerPicksFirstLeastPairAscending : ∃ n i j : Nat, 2 ≤ n ∧ n ≤ 16 ∧ i < j ∧ j < n :=
  ⟨2, 0, 1, by decide⟩
theorem witness_CanonOrdersEightBitEndpoints :
    lexless (workOf [] []).color0 (workOf [] []).color1 = false ∧
    lexless { Work.zero with color1 := ⟨0#8, 0#8, 1#8⟩ }.color0 ⟨0#8, 0#8, 1#8⟩ = true := by decide
/-- The last byte of the buffer in each clause; the third at the DXT5 alpha code of position 15. -/
theorem witness_BitPackerWritesExactlyItsBits :
    (∃ b k : Nat, b + 1 < 16 ∧ k < 16 ∧ k = b + 1) ∧
    (∃ base t k e : Nat, base + t / 8 < 16 ∧ k < 16 ∧ e < 8 ∧ k = 15) ∧
    (∃ L base pos k e : Nat, L = 3 ∧ base + (L * pos + (L - 1)) / 8 < 16 ∧ k < 16 ∧ e < 8 ∧ pos = 15) :=
  ⟨⟨14, 15, by decide⟩, ⟨12, 31, 15, 7, by decide⟩, ⟨3, 2, 15, 7, 7, by decide⟩⟩
/-- A 1x4 block of each mode the statements of the finished block name, with a position in it and one outside. -/
def edge (m : Mode) : Operands := ⟨m, .avg, 1, 4, true⟩
/-- The smallest size with a pair, of which one order is canonical and one is not, and the size of one sample. -/
theorem witness_EndpointBytesOfFinishedBlock :
    (1 ≤ (edge .dxt5).w ∧ (edge .dxt5).w ≤ 4 ∧ 1 ≤ (edge .dxt5).h ∧ (edge .dxt5).h ≤ 4 ∧ (edge .dxt5).mode = .dxt5 ∧
      2 ≤ (edge .dxt5).w * (edge .dxt5).h) ∧
    (∃ o : Operands, o.mode = .dxt5 ∧ 1 ≤ o.w ∧ o.w ≤ 4 ∧ 1 ≤ o.h ∧ o.h ≤ 4 ∧ o.w * o.h = 1) ∧
    (∃ i j i' j' : Nat, i < j ∧ j < 4 ∧ i' < j' ∧ j' < 4 ∧ i' = i ∧ j' < j) ∧
    lexless ⟨1#8, 0#8, 0#8⟩ ⟨0#8, 0#8, 0#8⟩ = false ∧ lexless ⟨0#8, 0#8, 0#8⟩ ⟨1#8, 0#8, 0#8⟩ = true :=
  ⟨by decide, ⟨⟨.dxt5, .avg, 1, 1, false⟩, by decide⟩, ⟨0, 2, 0, 1, by decide⟩, by decide⟩
theorem witness_ColourIndexFieldReadsBack :
    1 ≤ (edge .dxt1).w ∧ (edge .dxt1).w ≤ 4 ∧ 1 ≤ (edge .dxt1).h ∧ (edge .dxt1).h ≤ 4 ∧
    (∃ x y e : Nat, x < 4 ∧ y < 4 ∧ e < 2 ∧ x < (edge .dxt1).w ∧ y < (edge .dxt1).h) ∧
    ∃ x y e : Nat, x < 4 ∧ y < 4 ∧ e < 2 ∧ ¬ x < (edge .dxt1).w := by
  exact ⟨by decide, by decide, by decide, by decide, ⟨0, 3, 1, by decide⟩, ⟨1, 3, 1, by decide⟩⟩
theorem witness_Dxt3AlphaFieldReadsBack :
    (edge .dxt3).mode = .dxt3 ∧ 1 ≤ (edge .dxt3).w ∧ (edge .dxt3).w ≤ 4 ∧ 1 ≤ (edge .dxt3).h ∧ (edge .dxt3).h ≤ 4 ∧
    ∃ x y e : Nat, x < 4 ∧ y < 4 ∧ e < 4 ∧ y = 3 :=
  ⟨rfl, by decide, by decide, by decide, by decide, ⟨3, 3, 3, by decide⟩⟩
theorem witness_Dxt5AlphaFieldReadsBack :
    (edge .dxt5).mode = .dxt5 ∧ 1 ≤ (edge .dxt5).w ∧ (edge .dxt5).w ≤ 4 ∧ 1 ≤ (edge .dxt5).h ∧ (edge .dxt5).h ≤ 4 ∧
    ∃ x y e : Nat, x < 4 ∧ y < 4 ∧ e < 3 ∧ y = 3 :=
  ⟨rfl, by decide, by decide, by decide, by decide, ⟨3, 3, 2, by decide⟩⟩
/-- A uniform block in each of the three cases: alpha not 0, PTE = 0, not DXT1. -/
theorem witness_FinishedBlockProperties :
    (∀ pos ∈ usedPositions (edge .dxt1).w (edge .dxt1).h, entry (Vector.replicate 16 0x01000000#32) pos = 0x01000000#32) ∧
    (∀ pos ∈ usedPositions 4 4, entry (Vector.replicate 16 0x000000FF#32) pos = 0x000000FF#32) ∧
    pixelAlpha 0x01000000#32 ≠ 0#8 ∧ { edge .dxt1 with pte := false }.pte = false ∧ (edge .dxt3).mode ≠ .dxt1 ∧
    (edge .dxt5).mode = .dxt5 ∧ 1 ≤ (edge .dxt1).w ∧ (edge .dxt1).w ≤ 4 ∧ 1 ≤ (edge .dxt1).h ∧
    (edge .dxt1).h ≤ 4 := by decide
/-- Two pixel arrays that differ at an unused position only. -/
theorem witness_EncodeDependsOnUsedPixelsOnly :
    (∀ pos ∈ usedPositions (edge .dxt5).w (edge .dxt5).h,
      entry (idle 0#16 []).pix pos = entry (idle 0#16 [(1, 7#32)]).pix pos) ∧
    (idle 0#16 []).pix ≠ (idle 0#16 [(1, 7#32)]).pix ∧ 1 ≤ (edge .dxt5).w ∧ (edge .dxt5).w ≤ 4 ∧
    1 ≤ (edge .dxt5).h ∧ (edge .dxt5).h ≤ 4 := by decide
/-- Two pixel arrays that differ in an alpha of a used position only. -/
theorem witness_PunchThroughOnlyInDxt1 :
    (edge .dxt3).mode ≠ .dxt1 ∧ { edge .dxt1 with pte := false }.mode = .dxt1 ∧
    (∀ pos ∈ usedPositions 1 4,
      pixelColor (entry (idle 0#16 []).pix pos) = pixelColor (entry (idle 0#16 [(0, 0xFF000000#32)]).pix pos)) ∧
    (idle 0#16 []).pix ≠ (idle 0#16 [(0, 0xFF000000#32)]).pix := by decide
/-- Two pixel arrays that differ in a colour of a used position only, and two metrics. -/
theorem witness_Dxt5AlphaHalfIgnoresColour :
    (edge .dxt5).mode = .dxt5 ∧ { edge .dxt5 with metric := .srgb }.mode = .dxt5 ∧
    (∀ pos ∈ usedPositions (edge .dxt5).w (edge .dxt5).h,
      pixelAlpha (entry (idle 0#16 []).pix pos) = pixelAlpha (entry (idle 0#16 [(0, 0x00FFFFFF#32)]).pix pos)) ∧
    1 ≤ (edge .dxt5).w ∧ (edge .dxt5).w ≤ 4 ∧ 1 ≤ (edge .dxt5).h ∧ (edge .dxt5).h ≤ 4 := by decide

/-! ### Witnesses: encoding -/

/-- The first clause on a read with a data word that is not looked at, and on a write; the second on a command. -/
theorem witness_DecodedWordsEncodeBack :
    decodeBus 0x07C#9 5#32 = .ok (.rdPix 15) ∧ decodeBus 0x17C#9 5#32 = .ok (.wrPix 15 5#32) ∧
    decodeCmd 0x0000144C#32 = .ok (.encDxt1 .avg 4#3 4#3 true) := by decide

/-! ### Witnesses: the step -/

theorem witness_StepRunsDecodedAccess : ∃ (s : State) (a : Access) (rest : List Turn) (i : Instr),
    s.turns = .access a :: rest ∧ a.width = 32 ∧ decodeBus a.bt a.data = .ok i :=
  ⟨finished [.access ⟨32, 0x17C#9, 5#32⟩, .reset], _, _, .wrPix 15 5#32, rfl, rfl, by decide⟩
/-- Both forms of the encoder's turn, and one while IDLE. -/
theorem witness_StepRunsSnapshotCommand :
    (running 0x44C#32 []).NextIsEncoder ∧ (running 0x44C#32 [.encoder]).NextIsEncoder ∧
    (running 0x44C#32 []).busy = true ∧
    decodeCmd (running 0x44C#32 []).hidden.snapCmd = .ok (.encDxt1 .avg 4#3 4#3 false) ∧
    (finished [.encoder]).NextIsEncoder ∧ (finished [.encoder]).busy = false :=
  ⟨.inl rfl, .inr ⟨[], rfl⟩, rfl, by decide, .inr ⟨[], rfl⟩, rfl⟩
/-- Each ground of an illegal access at the ends of its range, and legal accesses beside them. -/
theorem witness_IllegalAccessesGetBusErrorOnly :
    IllegalAccess ⟨16, 0x000#9, 0#32⟩ ∧ IllegalAccess ⟨32, 0x006#9, 0#32⟩ ∧ IllegalAccess ⟨32, 0x104#9, 0#32⟩ ∧
    IllegalAccess ⟨32, 0x180#9, 0#32⟩ ∧ IllegalAccess ⟨32, 0x18C#9, 0#32⟩ ∧ IllegalAccess ⟨32, 0x008#9, 0#32⟩ ∧
    IllegalAccess ⟨32, 0x03C#9, 0#32⟩ ∧ IllegalAccess ⟨32, 0x090#9, 0#32⟩ ∧ IllegalAccess ⟨32, 0x0FC#9, 0#32⟩ ∧
    ¬ IllegalAccess ⟨32, 0x004#9, 0#32⟩ ∧ ¬ IllegalAccess ⟨32, 0x040#9, 0#32⟩ ∧
    ¬ IllegalAccess ⟨32, 0x17C#9, 0#32⟩ ∧ ¬ IllegalAccess ⟨32, 0x08C#9, 0#32⟩ := by
  simp [IllegalAccess, Access.off, busOff, busWe]
/-- A reset while BUSY, and the state after it, whose next turn is the encoder's. -/
theorem witness_ResetStepClearsAndAbandons : ∃ s t : State,
    s.turns = [.reset, .encoder] ∧ s.busy = true ∧ s.NextIsReset ∧ step s = .next t ∧ t.NextIsEncoder :=
  ⟨running 0x44C#32 [.reset, .encoder], _, rfl, rfl, ⟨_, rfl⟩, rfl, .inr ⟨[], rfl⟩⟩

/-! ### Witnesses: rules of the whole machine -/

/-- A step that changes CMD by a write, and one that changes it by a reset. -/
theorem witness_CmdWrittenOnlyByUndroppedWrite :
    (∃ s t : State, step s = .next t ∧ t.cmd ≠ s.cmd ∧ s.busy = false) ∧
    ∃ s t : State, step s = .next t ∧ t.cmd ≠ s.cmd ∧ s.NextIsReset :=
  ⟨⟨finished [.access ⟨32, 0x100#9, 3#32⟩], _, rfl, by decide, rfl⟩,
    ⟨finished [.reset], _, rfl, by decide, ⟨[], rfl⟩⟩⟩
/-- A write of slot 15, a step without one, a slot that is not valid, and a legal command that uses it. -/
theorem witness_ValidBitsSetByWritePixClearedByReset :
    (∃ s t : State, step s = .next t ∧ t.valid 15 = true ∧ s.valid 15 = false) ∧
    (∃ s t : State, step s = .next t ∧ t.valid 15 = false ∧ s.valid 15 = true) ∧
    (idle 0x7FFF#16 []).valid 15 = false ∧ LegalCommand 0x0000044C#32 ∧
    ∃ pos ∈ cmdPositions 0x0000044C#32, (idle 0x7FFF#16 []).valid pos = false :=
  ⟨⟨{ idle 0x7FFF#16 [] with turns := [.access ⟨32, 0x17C#9, 1#32⟩] }, _, rfl, by decide, by decide⟩,
    ⟨finished [.reset], _, rfl, by decide, by decide⟩, by decide,
    ⟨by decide, by decide, by decide, by decide⟩, 15, by decide, by decide⟩
/-- A completion that changes OUT (a white 1x1 DXT1 block), and a reset that does. -/
theorem witness_OutChangesOnlyAtCompletionOrReset :
    (∃ s t : State, step s = .next t ∧ t.out ≠ s.out ∧ s.NextIsEncoder) ∧
    ∃ s t : State, step s = .next t ∧ t.out ≠ s.out ∧ s.NextIsReset :=
  ⟨⟨{ running 0x0000011C#32 [] with
        hidden := ⟨0x0000011C#32, Vector.replicate 16 0xFFFFFFFF#32, Work.zero⟩ }, _, rfl, by decide +kernel, .inl rfl⟩,
    ⟨{ finished [.reset] with out := Vector.replicate 4 1#32 }, _, rfl, by decide, ⟨[], rfl⟩⟩⟩
/-- A step that sets ERR; and an idle state with a word that passes CHECK and one that fails. -/
theorem witness_ErrHoldsUntilNextCommand :
    (∃ s t : State, s.Inv ∧ step s = .next t ∧ t.err ≠ s.err) ∧ (finished []).busy = false ∧
    (finished []).check 0x0000044C#32 = none ∧ (finished []).check 3#32 = some .reservedMode :=
  ⟨⟨finished [.access ⟨32, 0x100#9, 3#32⟩], _, finished_inv _, rfl, by decide⟩, by decide⟩
/-- A WR.CMD, a WR.PIX and an illegal access while BUSY. -/
theorem witness_HostAccessLeavesRunningEncode :
    (running 0x44C#32 [.access ⟨32, 0x100#9, 3#32⟩]).busy = true ∧
    (running 0x44C#32 [.access ⟨32, 0x100#9, 3#32⟩]).NextIsAccess ∧
    (running 0x44C#32 [.access ⟨32, 0x140#9, 3#32⟩]).NextIsAccess ∧
    (running 0x44C#32 [.access ⟨8, 0x1FF#9, 3#32⟩]).NextIsAccess :=
  ⟨rfl, ⟨_, _, rfl⟩, ⟨_, _, rfl⟩, ⟨_, _, rfl⟩⟩
/-- A write of slot 0 and a dropped command between the acceptance and the encoder's turn. -/
theorem witness_AcceptedCommandCompletesWithItsBlock :
    let mid : List Access := [⟨32, 0x140#9, 3#32⟩, ⟨32, 0x100#9, 3#32⟩]
    let s := { idle 0xFFFF#16 [] with
      turns := .access ⟨32, 0x100#9, 0x0000044E#32⟩ :: (mid.map Turn.access ++ Turn.encoder :: [Turn.reset]) }
    s.busy = false ∧ s.check 0x0000044E#32 = none ∧ cmdMode 0x0000044E#32 = codeOfMode .dxt5 ∧
    s.turns = .access ⟨32, 0x100#9, 0x0000044E#32⟩ :: (mid.map Turn.access ++ Turn.encoder :: [Turn.reset]) := by decide
/-- A step from a running state and one from an idle state, both within the invariant. -/
theorem witness_StepKeepsInvariant :
    (∃ s t : State, s.Inv ∧ step s = .next t ∧ s.busy = true) ∧
    ∃ s t : State, s.Inv ∧ step s = .next t ∧ s.busy = false :=
  ⟨⟨running 0x44C#32 [.access ⟨32, 0x100#9, 3#32⟩], _, running_inv _, rfl, rfl⟩,
    ⟨finished [.access ⟨32, 0x100#9, 0x0000044C#32⟩], _, finished_inv _, rfl, rfl⟩⟩

end Sys2Proof.Tests
end

section
/-! SUPPORT. The statements of 00_scope.md: what a block depends on (R6), and where the encoder's step is enabled
(R9). -/

namespace Sys2Proof.Machine

/-! ### The positions of the samples (40_sample_collector.md R80, R82) -/

theorem mem_usedPositions {w h pos : Nat} :
    pos ∈ usedPositions w h ↔ ∃ x y, x < w ∧ y < h ∧ pos = x + 4 * y := by
  simp only [usedPositions, List.mem_flatMap, List.mem_map, List.mem_range]
  constructor
  · rintro ⟨y, hy, x, hx, rfl⟩
    exact ⟨x, y, hx, hy, rfl⟩
  · rintro ⟨x, y, hx, hy, rfl⟩
    exact ⟨y, hy, x, hx, rfl⟩

theorem samplePos_mem_usedPositions {w h k : Nat} (hw : 1 ≤ w) (hk : k < w * h) :
    samplePos w k ∈ usedPositions w h :=
  mem_usedPositions.mpr ⟨k % w, k / w, Nat.mod_lt _ hw, Nat.div_lt_of_lt_mul hk, rfl⟩

/-! ### What the reducers' endpoints depend on (42_color_reducer.md R115, 43_alpha_reducer.md R125) -/

theorem setAlphas_alpha0 (a b : Byte) (wk : Work) :
    (setAlphas a b wk).alpha0 = if b.toNat < a.toNat then b else a := by
  unfold setAlphas; split <;> rfl
theorem setAlphas_alpha1 (a b : Byte) (wk : Work) :
    (setAlphas a b wk).alpha1 = if b.toNat < a.toNat then a else b := by
  unfold setAlphas; split <;> rfl

/-- The search over a freshly filled D reads the colours of the n samples only: neither D's old content nor the
colours past them. -/
theorem search_colorCost_congr (p : Config.Params) (m : Metric) {n : Nat} {c c' : Vector Color 16}
    (d d' : Matrix16) (h2 : 2 ≤ n) (hn : n ≤ 16) (hc : ∀ k, k < n → entry c k = entry c' k) :
    search n (colorCost (fillMatrix n (fun i k => dist p m (entry c i) (entry c k)) d) n) =
      search n (colorCost (fillMatrix n (fun i k => dist p m (entry c' i) (entry c' k)) d') n) := by
  refine search_congr h2 fun i j hi hj => ?_
  rw [colorCost_fillMatrix _ _ _ hn hi hj, colorCost_fillMatrix _ _ _ hn hi hj, hc i hi, hc j hj]
  congr 1
  refine List.map_congr_left fun k hk => ?_
  rw [hc k (List.mem_range.mp hk)]

/-- The search over a freshly filled AD reads the alphas of the n samples only. -/
theorem search_alphaCost_congr {n : Nat} {a a' : Vector Byte 16} (d d' : Matrix16) (h2 : 2 ≤ n) (hn : n ≤ 16)
    (ha : ∀ k, k < n → entry a k = entry a' k) :
    search n (alphaCost (fillMatrix n (fun i k => distAlpha (entry a i) (entry a k)) d) a n) =
      search n (alphaCost (fillMatrix n (fun i k => distAlpha (entry a' i) (entry a' k)) d') a' n) := by
  refine search_congr h2 fun i j hi hj => ?_
  rw [alphaCost_fillMatrix _ _ _ _ hn hi hj, alphaCost_fillMatrix _ _ _ _ hn hi hj, ha i hi, ha j hj]
  congr 1
  refine List.map_congr_left fun k hk => ?_
  rw [ha k (List.mem_range.mp hk)]

/-- REDUCE_COLOR's endpoints depend on the colours of the n samples only. -/
theorem reduceColor_endpoints_congr (p : Config.Params) (m : Metric) {n : Nat} {wk wk' : Work} (h1 : 1 ≤ n)
    (hn : n ≤ 16) (hc : ∀ k, k < n → entry wk.c k = entry wk'.c k) :
    (reduceColor p m n wk).color0 = (reduceColor p m n wk').color0 ∧
    (reduceColor p m n wk).color1 = (reduceColor p m n wk').color1 := by
  unfold reduceColor
  split
  · exact ⟨hc 0 h1, hc 0 h1⟩
  · have h2 : 2 ≤ n := by omega
    simp only [search_colorCost_congr p m wk.d wk'.d h2 hn hc]
    obtain ⟨hi, hj⟩ := search_bounds
      (colorCost (fillMatrix n (fun i k => dist p m (entry wk'.c i) (entry wk'.c k)) wk'.d) n) h2
    exact ⟨hc _ hi, hc _ hj⟩

/-- REDUCE_ALPHA's endpoints depend on the alphas of the n samples only. -/
theorem reduceAlpha_endpoints_congr {n : Nat} {wk wk' : Work} (h1 : 1 ≤ n) (hn : n ≤ 16)
    (ha : ∀ k, k < n → entry wk.a k = entry wk'.a k) :
    (reduceAlpha n wk).alpha0 = (reduceAlpha n wk').alpha0 ∧
    (reduceAlpha n wk).alpha1 = (reduceAlpha n wk').alpha1 := by
  unfold reduceAlpha
  split
  · simp only [setAlphas_alpha0, setAlphas_alpha1, ha 0 h1, and_self]
  · have h2 : 2 ≤ n := by omega
    simp only [search_alphaCost_congr wk.ad wk'.ad h2 hn ha]
    obtain ⟨hi, hj⟩ := search_bounds
      (alphaCost (fillMatrix n (fun i k => distAlpha (entry wk'.a i) (entry wk'.a k)) wk'.ad) wk'.a n) h2
    simp only [setAlphas_alpha0, setAlphas_alpha1, ha _ hi, ha _ hj, and_self]

/-! ### The endpoints PACK reads -/

/-- Two working states have the same endpoints, as far as mode m packs them: the alphas in DXT5 only
(44_block_packer.md R135 to R137). -/
structure EndpointsAgree (m : Mode) (wk wk' : Work) : Prop where
  color0 : wk.color0 = wk'.color0
  color1 : wk.color1 = wk'.color1
  alpha0 : m = .dxt5 → wk.alpha0 = wk'.alpha0
  alpha1 : m = .dxt5 → wk.alpha1 = wk'.alpha1

/-- The reducers' endpoints depend on the n samples only. -/
theorem endpointsAgree_reduce (p : Config.Params) {o : Operands} {wk wk' : Work} (h1 : 1 ≤ o.n) (hn : o.n ≤ 16)
    (hc : ∀ k, k < o.n → entry wk.c k = entry wk'.c k) (ha : ∀ k, k < o.n → entry wk.a k = entry wk'.a k) :
    EndpointsAgree o.mode (reduce p o wk) (reduce p o wk') := by
  obtain ⟨hcolor0, hcolor1⟩ := reduceColor_endpoints_congr p o.metric h1 hn hc
  have halpha : o.mode = .dxt5 →
      (reduce p o wk).alpha0 = (reduce p o wk').alpha0 ∧ (reduce p o wk).alpha1 = (reduce p o wk').alpha1 := by
    intro hm
    simp only [reduce, hm]
    exact reduceAlpha_endpoints_congr h1 hn (by simpa using ha)
  exact {
    color0 := by rw [reduce_color0, reduce_color0, hcolor0]
    color1 := by rw [reduce_color1, reduce_color1, hcolor1]
    alpha0 := fun hm => (halpha hm).1
    alpha1 := fun hm => (halpha hm).2 }

theorem EndpointsAgree.canon {m : Mode} {wk wk' : Work} (h : EndpointsAgree m wk wk') :
    EndpointsAgree m (canon wk) (canon wk') where
  color0 := by rw [canon_color0, canon_color0, h.color0, h.color1]
  color1 := by rw [canon_color1, canon_color1, h.color0, h.color1]
  alpha0 hm := by simpa using h.alpha0 hm
  alpha1 hm := by simpa using h.alpha1 hm

/-! ### Byte k of the buffer after a store depends on byte k before it (44_block_packer.md R134, R138) -/

section
variable {ob ob' : Vector Byte 16} {k : Nat}

theorem entry_storeByte_congr (b : Nat) (v : Byte) (h : entry ob k = entry ob' k) :
    entry (storeByte ob b v) k = entry (storeByte ob' b v) k := by
  rw [entry_storeByte, entry_storeByte, h]

theorem entry_write16le_congr (b : Nat) (v : BitVec 16) (h : entry ob k = entry ob' k) :
    entry (write16le ob b v) k = entry (write16le ob' b v) k :=
  entry_storeByte_congr _ _ (entry_storeByte_congr _ _ h)

theorem entry_setBit_congr (base t : Nat) (h : entry ob k = entry ob' k) :
    entry (setBit base t ob) k = entry (setBit base t ob') k := by
  by_cases hk : k = base + t / 8
  · subst hk
    rw [setBit, setBit, h]
    exact entry_storeByte_congr _ _ h
  · rw [entry_setBit_ne _ _ _ _ hk, entry_setBit_ne _ _ _ _ hk, h]

theorem entry_writeCode_congr {L : Nat} (base pos : Nat) (c : BitVec L) (h : entry ob k = entry ob' k) :
    entry (writeCode base pos c ob) k = entry (writeCode base pos c ob') k := by
  unfold writeCode
  refine List.foldl_rel (r := fun ob ob' => entry ob k = entry ob' k) h fun e _ ob ob' hob => ?_
  split
  · exact entry_setBit_congr _ _ hob
  · exact hob

/-- The endpoint stores write the packed endpoints, whatever else the working state holds. -/
theorem entry_writeEndpoints_congr {m : Mode} {wk wk' : Work} (hwk : EndpointsAgree m wk wk')
    (h : entry ob k = entry ob' k) :
    entry (writeEndpoints m wk ob) k = entry (writeEndpoints m wk' ob') k := by
  have hcolor : entry (write16le (write16le ob (colorBase m) (pack565 wk.color0)) (colorBase m + 2)
        (pack565 wk.color1)) k =
      entry (write16le (write16le ob' (colorBase m) (pack565 wk'.color0)) (colorBase m + 2)
        (pack565 wk'.color1)) k := by
    rw [hwk.color0, hwk.color1]
    exact entry_write16le_congr _ _ (entry_write16le_congr _ _ h)
  cases m with
  | dxt1 => exact hcolor
  | dxt3 => exact hcolor
  | dxt5 =>
    simp only [writeEndpoints, hwk.alpha0 rfl, hwk.alpha1 rfl]
    exact entry_storeByte_congr _ _ (entry_storeByte_congr _ _ hcolor)

theorem colorCode_congr (p : Config.Params) {o : Operands} {wk wk' : Work} (px : Word)
    (hwk : EndpointsAgree o.mode wk wk') : colorCode p o wk px = colorCode p o wk' px := by
  unfold colorCode
  rw [hwk.color0, hwk.color1]

theorem entry_writeAlpha_congr {o : Operands} {wk wk' : Work} (pos : Nat) (px : Word)
    (hwk : EndpointsAgree o.mode wk wk') (h : entry ob k = entry ob' k) :
    entry (writeAlpha o wk pos px ob) k = entry (writeAlpha o wk' pos px ob') k := by
  unfold writeAlpha
  split
  · exact h
  · exact entry_writeCode_congr _ _ _ h
  · next hm =>
    rw [hwk.alpha0 hm, hwk.alpha1 hm]
    exact entry_writeCode_congr _ _ _ h

/-- The codes of position pos depend on its pixel and the endpoints only. -/
theorem entry_writePixelCodes_congr (p : Config.Params) {o : Operands} {pix pix' : Vector Word 16} {wk wk' : Work}
    {pos : Nat} (hwk : EndpointsAgree o.mode wk wk') (hpix : entry pix pos = entry pix' pos)
    (h : entry ob k = entry ob' k) :
    entry (writePixelCodes p o pix wk ob pos) k = entry (writePixelCodes p o pix' wk' ob' pos) k := by
  unfold writePixelCodes
  rw [hpix, colorCode_congr p _ hwk]
  exact entry_writeAlpha_congr _ _ hwk (entry_writeCode_congr _ _ _ h)

end

/-! ### What a block depends on (00_scope.md R6, 45_commands.md R160) -/

theorem modeSize_le (m : Mode) : modeSize m ≤ 16 := by cases m <;> decide

/-- PACK's bytes inside the block's size depend on the endpoints and the used pixels only: the zero fill hides the
old buffer. -/
theorem entry_pack_congr (p : Config.Params) {o : Operands} {pix pix' : Vector Word 16} {wk wk' : Work} {k : Nat}
    (hwk : EndpointsAgree o.mode wk wk') (hpix : ∀ pos ∈ usedPositions o.w o.h, entry pix pos = entry pix' pos)
    (hk : k < modeSize o.mode) : entry (pack p o pix wk).ob k = entry (pack p o pix' wk').ob k := by
  have hzero : entry (zeroFill o.mode (canon wk).ob) k = entry (zeroFill o.mode (canon wk').ob) k := by
    have hk16 : k < 16 := lt_of_lt_of_le hk (modeSize_le o.mode)
    rw [entry_zeroFill _ _ hk16, entry_zeroFill _ _ hk16, if_pos hk, if_pos hk]
  exact List.foldl_rel (r := fun ob ob' => entry ob k = entry ob' k)
    (entry_writeEndpoints_congr hwk.canon hzero)
    fun pos hpos _ _ hob => entry_writePixelCodes_congr p hwk.canon (hpix pos hpos) hob

/-- The bytes of a block are the same for any two pixel arrays that agree at the used positions and any two working
states the encode starts from. -/
theorem entry_encodeWork_congr (p : Config.Params) {o : Operands} {pix pix' : Vector Word 16} (wk wk' : Work)
    {k : Nat} (hw1 : 1 ≤ o.w) (hw4 : o.w ≤ 4) (hh1 : 1 ≤ o.h) (hh4 : o.h ≤ 4)
    (hpix : ∀ pos ∈ usedPositions o.w o.h, entry pix pos = entry pix' pos) (hk : k < modeSize o.mode) :
    entry (encodeWork p o pix wk).ob k = entry (encodeWork p o pix' wk').ob k := by
  have hn1 : 1 ≤ o.n := Nat.mul_pos hw1 hh1
  have hn16 : o.n ≤ 16 := Nat.mul_le_mul hw4 hh4
  have hsample : ∀ i, i < o.n → entry pix (samplePos o.w i) = entry pix' (samplePos o.w i) :=
    fun i hi => hpix _ (samplePos_mem_usedPositions hw1 hi)
  refine entry_pack_congr p (endpointsAgree_reduce p hn1 hn16 (fun i hi => ?_) fun i hi => ?_) hpix hk
  · rw [entry_collect_c _ _ _ _ hi (by omega), entry_collect_c _ _ _ _ hi (by omega), hsample i hi]
  · rw [entry_collect_a _ _ _ _ hi (by omega), entry_collect_a _ _ _ _ hi (by omega), hsample i hi]

theorem take_toList_congr {ob ob' : Vector Byte 16} {m : Nat} (h : ∀ k, k < m → entry ob k = entry ob' k) :
    ob.toList.take m = ob'.toList.take m := by
  refine List.ext_getElem (by simp) fun k hk hk' => ?_
  simp only [List.length_take, Vector.length_toList, lt_min_iff] at hk
  simpa [entry_eq_getElem _ _ hk.2] using h k hk.1

/-! ### The encoder's step and the commands it runs (00_scope.md R9) -/

/-- The meaning of an encode command is the encoder running it, in its mode; it is well formed iff its size is
legal. -/
theorem exec_enc_eq_runCommand {metric : Metric} {w h : BitVec 3} {pte : Bool} {i : Instr} (s : State)
    (hi : i = .encDxt1 metric w h pte ∨ i = .encDxt3 metric w h pte ∨ i = .encDxt5 metric w h pte) :
    ∃ mode, exec i s = .next (s.runCommand mode metric w h pte) ∧ i.wf = (sizeOk w && sizeOk h) := by
  rcases hi with rfl | rfl | rfl
  · exact ⟨.dxt1, rfl, rfl⟩
  · exact ⟨.dxt3, rfl, rfl⟩
  · exact ⟨.dxt5, rfl, rfl⟩

theorem fetch_of_nextIsEncoder {s : State} (h : s.NextIsEncoder) :
    fetch s = fetchCommand (s.withTurns s.turns.tail) := by
  rcases h with ht | ⟨rest, ht⟩
  · have hs : s.withTurns s.turns.tail = s := by rw [ht, List.tail_nil, ← ht]; rfl
    rw [hs, fetch, ht]
  · rw [fetch, ht]; rfl

theorem fetchCommand_of_busy {s : State} {i : Instr} (hb : s.busy = true)
    (hd : decodeCmd s.hidden.snapCmd = .ok i) : fetchCommand s = .run i s := by
  simp [fetchCommand, hb, hd]

theorem fetchCommand_of_idle {s : State} (hb : s.busy = false) : fetchCommand s = .done s := by
  simp [fetchCommand, hb]

theorem step_of_fetch_run {s s' : State} {i : Instr} (h : fetch s = .run i s') : step s = exec i s' := by
  rw [step, h]

theorem step_of_fetch_done {s s' : State} (h : fetch s = .done s') : step s = .next s' := by
  rw [step, h]

end Sys2Proof.Machine

namespace Sys2Proof.Proofs

open Sys2Proof.Machine

/-- Settles O41: COLLECT overwrites the n samples, the reducers read only those, and PACK zero-fills every byte of
the block before it writes endpoints and codes. -/
theorem encodeDependsOnUsedPixelsOnly : Obligations.EncodeDependsOnUsedPixelsOnly := by
  intro p o pix pix' wk wk' hw1 hw4 hh1 hh4 hpix
  exact take_toList_congr fun _ hk => entry_encodeWork_congr p wk wk' hw1 hw4 hh1 hh4 hpix hk

/-- Settles O15: outside its enable the encoder leaves the state or rejects the size. -/
theorem encCommandsOutsideTheirEnable : Obligations.EncCommandsOutsideTheirEnable := by
  intro s metric w h pte i hi
  obtain ⟨mode, hexec, hwf⟩ := exec_enc_eq_runCommand s hi
  rw [hexec]
  constructor
  · intro hb
    rw [runCommand_idle s mode metric w h pte hb]
  · intro hb hill
    rw [runCommand_illegal s mode metric w h pte hb (hwf ▸ hill)]
    rfl

/-- Settles O48: an encoder's turn fetches the snapshot's command while BUSY, and nothing while IDLE. -/
theorem stepRunsSnapshotCommand : Obligations.StepRunsSnapshotCommand := by
  refine ⟨fun s i hnext hb hd => ?_, fun s hnext hb => ?_⟩
  · exact step_of_fetch_run ((fetch_of_nextIsEncoder hnext).trans (fetchCommand_of_busy hb hd))
  · exact step_of_fetch_done ((fetch_of_nextIsEncoder hnext).trans (fetchCommand_of_idle hb))

end Sys2Proof.Proofs
end

section
/-! SUPPORT. The statements of 10_state.md: the invariant of the registers (R23), and the one access or turn that
writes CMD (R22), PV (R25) and OUT (R26). -/

namespace Sys2Proof.Machine

/-! ### The invariant, operation by operation -/

/-- The invariant speaks of DXTE's registers, not of the model's own queue and record (logs 4 and 5). -/
theorem State.Inv.withQueues {s : State} (h : s.Inv) (ts : List Turn) (rs : List Reply) :
    State.Inv { s with turns := ts, replies := rs } where
  busy_not_done := h.busy_not_done
  err_known := h.err_known
  err_done := h.err_done
  drop_cmd := h.drop_cmd
  snap_cmd := h.snap_cmd
  snap_legal := h.snap_legal
  snap_valid := h.snap_valid
  fresh := h.fresh

theorem State.Inv.withTurns {s : State} (h : s.Inv) (ts : List Turn) : (s.withTurns ts).Inv :=
  h.withQueues ts s.replies

theorem State.Inv.reply {s : State} (h : s.Inv) (r : Reply) : (s.reply r).Inv :=
  h.withQueues s.turns (r :: s.replies)

/-- A running command has no error: an error would have set DONE (60_exceptions.md R181). -/
theorem State.Inv.err_eq_zero_of_busy {s : State} (h : s.Inv) (hb : s.busy = true) : s.err = 0#4 := by
  by_contra he
  have hdone := (h.err_done he).1
  rw [h.busy_not_done hb] at hdone
  cases hdone

/-- A rejection reaches a state of the invariant from any state: it ends the command and reports a code. -/
theorem inv_reject (s : State) (e : CmdError) : (s.reject e).Inv where
  busy_not_done := nofun
  err_known := (errCode_range e).2
  err_done _ := ⟨rfl, rfl⟩
  drop_cmd := nofun
  snap_cmd := nofun
  snap_legal := nofun
  snap_valid := nofun
  fresh _ := nofun

/-- Acceptance of a word that passes CHECK and stands in CMD reaches a state of the invariant from any state: what
the snapshot must meet is what CHECK has checked. -/
theorem inv_accept {s : State} (hc : s.check s.cmd = none) : (s.accept s.cmd).Inv := by
  obtain ⟨hlegal, hvalid⟩ := (check_eq_none_iff s s.cmd).mp hc
  exact {
    busy_not_done := fun _ => rfl
    err_known := Nat.zero_le 4
    err_done := fun he => absurd rfl he
    drop_cmd := nofun
    snap_cmd := fun _ => rfl
    snap_legal := fun _ => hlegal
    snap_valid := fun _ => hvalid
    fresh := nofun }

theorem State.Inv.dropCommand {s : State} (h : s.Inv) (hb : s.busy = true) : s.dropCommand.Inv where
  busy_not_done := h.busy_not_done
  err_known := h.err_known
  err_done he := absurd (h.err_eq_zero_of_busy hb) he
  drop_cmd _ := .inl hb
  snap_cmd := h.snap_cmd
  snap_legal := h.snap_legal
  snap_valid := h.snap_valid
  fresh hidle := absurd (hb.symm.trans hidle) nofun

theorem State.Inv.writeCmd {s : State} (h : s.Inv) (v : Word) : (s.writeCmd v).Inv := by
  rcases writeCmd_cases s v with ⟨hb, hw⟩ | ⟨-, hc, hw⟩ | ⟨e, -, -, hw⟩
  · rw [hw]; exact h.dropCommand hb
  · rw [hw]; exact inv_accept (s := s.storeCmd v) hc
  · rw [hw]; exact inv_reject _ e

/-- WR.PIX of slot k makes slot k valid and leaves the other slots as they are (45_commands.md R170). -/
theorem valid_writePix (s : State) (k : Fin 16) (v : Word) {j : Nat} (hj : j < 16) :
    (s.writePix k v).valid j = (decide (j = k.val) || s.valid j) :=
  valid_setValid { s with pix := s.pix.set k v } k j hj

theorem valid_lt {s : State} {j : Nat} (h : s.valid j = true) : j < 16 := BitVec.lt_of_getLsbD h

theorem State.Inv.writePix {s : State} (h : s.Inv) (k : Fin 16) (v : Word) : (s.writePix k v).Inv where
  busy_not_done := h.busy_not_done
  err_known := h.err_known
  err_done := h.err_done
  drop_cmd := h.drop_cmd
  snap_cmd := h.snap_cmd
  snap_legal := h.snap_legal
  snap_valid hb pos hpos := by
    have hold : s.valid pos = true := h.snap_valid hb pos hpos
    rw [valid_writePix s k v (valid_lt hold), hold, Bool.or_true]
  fresh := h.fresh

theorem State.Inv.complete {s : State} (h : s.Inv) (hb : s.busy = true) (ws : Vector Word 4) :
    (s.complete ws).Inv where
  busy_not_done := nofun
  err_known := h.err_known
  err_done he := absurd (h.err_eq_zero_of_busy hb) he
  drop_cmd _ := .inr rfl
  snap_cmd := nofun
  snap_legal := nofun
  snap_valid := nofun
  fresh _ := nofun

/-- Reset reaches the fresh state of the invariant from any state (70_reset_and_hazards.md R200). -/
theorem inv_platformReset (s : State) : s.platformReset.Inv where
  busy_not_done := nofun
  err_known := Nat.zero_le 4
  err_done he := absurd rfl he
  drop_cmd := nofun
  snap_cmd := nofun
  snap_legal := nofun
  snap_valid := nofun
  fresh _ _ := ⟨rfl, rfl, rfl, rfl⟩

/-! ### The invariant, turn by turn -/

theorem AccessEffect.inv {a : Access} {s t : State} (h : AccessEffect a s t) (hs : s.Inv) : t.Inv := by
  cases h with
  | error e hd ht => rw [ht]; exact hs.reply _
  | read i v hd hi ht => rw [ht]; exact hs.reply _
  | writePix k v hd ht => rw [ht]; exact (hs.writePix k v).reply _
  | writeCmd v hd ht => rw [ht]; exact (hs.writeCmd v).reply _

theorem EncoderEffect.inv {s t : State} (h : EncoderEffect s t) (hs : s.Inv) : t.Inv := by
  cases h with
  | idle hb ht => rw [ht]; exact hs
  | complete mode ws hb hw hh ht => rw [ht]; exact hs.complete hb ws
  | illegal e hb hsnap ht => rw [ht]; exact inv_reject s e

/-! ### Which turn is next -/

/-- An access that stands first in the queue is the next one. -/
theorem nextAccess_iff {s : State} {a : Access} {rest : List Turn} (ht : s.turns = .access a :: rest) (i : Instr) :
    s.NextAccess i ↔ decodeAccess a = .ok i := by
  constructor
  · rintro ⟨b, rest', hb, hd⟩
    rw [ht] at hb
    cases hb
    exact hd
  · exact fun hd => ⟨a, rest, ht, hd⟩

theorem not_nextIsReset_of_access {s : State} {a : Access} {rest : List Turn} (ht : s.turns = .access a :: rest) :
    ¬ s.NextIsReset := by
  simp [State.NextIsReset, ht]

theorem State.NextIsEncoder.not_nextIsReset {s : State} (h : s.NextIsEncoder) : ¬ s.NextIsReset := by
  rcases h with ht | ⟨rest, ht⟩ <;> simp [State.NextIsReset, ht]

theorem State.NextIsEncoder.not_nextAccess {s : State} (h : s.NextIsEncoder) (i : Instr) : ¬ s.NextAccess i := by
  rcases h with ht | ⟨rest, ht⟩ <;> simp [State.NextAccess, ht]

/-! ### Who writes CMD (10_state.md R22) -/

theorem writeCmd_cmd (s : State) (v : Word) : (s.writeCmd v).cmd = if s.busy then s.cmd else v := by
  rcases writeCmd_cases s v with ⟨hb, hw⟩ | ⟨hb, -, hw⟩ | ⟨e, hb, -, hw⟩ <;> simp [hb, hw]

/-- A host's turn that changes CMD is a WR.CMD of the new word, while IDLE. -/
theorem AccessEffect.wrCmd_of_cmd_ne {a : Access} {s t : State} (h : AccessEffect a s t) (hne : t.cmd ≠ s.cmd) :
    s.busy = false ∧ decodeAccess a = .ok (.wrCmd t.cmd) := by
  cases h with
  | error e hd ht => subst ht; exact absurd rfl hne
  | read i v hd hi ht => subst ht; exact absurd rfl hne
  | writePix k v hd ht => subst ht; exact absurd rfl hne
  | writeCmd v hd ht =>
    subst ht
    rw [State.reply_cmd, writeCmd_cmd] at hne ⊢
    cases hb : s.busy with
    | true => simp [hb] at hne
    | false => exact ⟨rfl, hd⟩

theorem EncoderEffect.cmd_eq {s t : State} (h : EncoderEffect s t) : t.cmd = s.cmd := by
  cases h with
  | idle hb ht => rw [ht]
  | complete mode ws hb hw hh ht => rw [ht, State.complete_cmd]
  | illegal e hb hs ht => rw [ht, State.reject_cmd]

/-! ### Who writes PV (10_state.md R25) -/

@[simp] theorem writeCmd_pv (s : State) (v : Word) : (s.writeCmd v).pv = s.pv := by
  rcases writeCmd_cases s v with ⟨-, hw⟩ | ⟨-, -, hw⟩ | ⟨e, -, -, hw⟩ <;> simp [hw]

/-- After a host's turn slot k is valid iff it was, or the access is a WR.PIX of slot k. -/
theorem AccessEffect.valid_iff {a : Access} {s t : State} (h : AccessEffect a s t) (k : Fin 16) :
    t.valid k.val = true ↔ s.valid k.val = true ∨ ∃ v, decodeAccess a = .ok (.wrPix k v) := by
  cases h with
  | error e hd ht => simp [ht, State.valid, hd]
  | read i v hd hi ht =>
    rcases hi with rfl | rfl | ⟨j, rfl⟩ | ⟨j, rfl⟩ <;> simp [ht, State.valid, hd]
  | writePix j v hd ht =>
    have hvalid : t.valid k.val = (decide (k.val = j.val) || s.valid k.val) :=
      ht ▸ valid_writePix s j v k.isLt
    simp [hvalid, hd, Fin.val_inj, or_comm, eq_comm (a := k)]
  | writeCmd v hd ht => simp [ht, State.valid, hd]

theorem EncoderEffect.pv_eq {s t : State} (h : EncoderEffect s t) : t.pv = s.pv := by
  cases h with
  | idle hb ht => rw [ht]
  | complete mode ws hb hw hh ht => rw [ht, State.complete_pv]
  | illegal e hb hs ht => rw [ht, State.reject_pv]

/-- STATUS bit 16 + k is PV[k] (45_commands.md R169). -/
theorem statusWord_getLsbD_valid (s : State) (k : Nat) : s.statusWord.getLsbD (16 + k) = s.valid k := by
  -- PV stands above the six other fields, 16 bits in all
  have hpos : 16 + k = k + 7 + 1 + 4 + 2 + 1 + 1 := by omega
  rw [State.statusWord, hpos]
  iterate 6 rw [BitVec.getLsbD_append]
  simp [State.valid]

/-- A legal command word passes CHECK or fails it for an unwritten pixel (60_exceptions.md R188). -/
theorem check_of_legalCommand (s : State) {v : Word} (h : LegalCommand v) :
    s.check v = if (cmdPositions v).all fun pos => s.valid pos then none else some .unwrittenPixel := by
  obtain ⟨hreserved, hmode, hw, hh⟩ := h
  simp [State.check, cmdPositions, hreserved, hmode, hw, hh]

/-! ### Who writes OUT (10_state.md R26) -/

@[simp] theorem writeCmd_out (s : State) (v : Word) : (s.writeCmd v).out = s.out := by
  rcases writeCmd_cases s v with ⟨-, hw⟩ | ⟨-, -, hw⟩ | ⟨e, -, -, hw⟩ <;> simp [hw]

theorem AccessEffect.out_eq {a : Access} {s t : State} (h : AccessEffect a s t) : t.out = s.out := by
  cases h with
  | error e hd ht => rw [ht, State.busError_out]
  | read i v hd hi ht => rw [ht, State.reply_out]
  | writePix k v hd ht => rw [ht, State.reply_out, State.writePix_out]
  | writeCmd v hd ht => rw [ht, State.reply_out, writeCmd_out]

/-- An encoder's turn that changes OUT is a completion. -/
theorem EncoderEffect.completes_of_out_ne {s t : State} (h : EncoderEffect s t) (hne : t.out ≠ s.out) :
    s.busy = true ∧ t.busy = false ∧ t.done = true := by
  cases h with
  | idle hb ht => subst ht; exact absurd rfl hne
  | complete mode ws hb hw hh ht => subst ht; exact ⟨hb, rfl, rfl⟩
  | illegal e hb hs ht => subst ht; exact absurd rfl hne

end Sys2Proof.Machine

namespace Sys2Proof.Proofs

open Sys2Proof.Machine

/-- Settles O59: the invariant ignores the queue of turns, and each turn's effect keeps it. -/
theorem stepKeepsInvariant : Obligations.StepKeepsInvariant := by
  intro s t hs hstep
  rcases step_cases hstep with ⟨a, rest, -, heff⟩ | ⟨-, heff⟩ | ⟨rest, -, rfl⟩
  · exact heff.inv (hs.withTurns rest)
  · exact heff.inv (hs.withTurns s.turns.tail)
  · exact inv_platformReset _

/-- Settles O53: of the effects of a turn only an undropped WR.CMD and a reset write CMD. -/
theorem cmdWrittenOnlyByUndroppedWrite : Obligations.CmdWrittenOnlyByUndroppedWrite := by
  refine ⟨fun _ => rfl, fun s v => ⟨_, rfl, writeCmd_cmd s v⟩, fun s t hstep hne => ?_, rfl⟩
  rcases step_cases hstep with ⟨a, rest, hturn, heff⟩ | ⟨-, heff⟩ | ⟨rest, hturn, rfl⟩
  · obtain ⟨hb, hd⟩ := heff.wrCmd_of_cmd_ne hne
    exact .inr ⟨hb, (nextAccess_iff hturn _).mpr hd⟩
  · exact absurd heff.cmd_eq hne
  · exact .inl ⟨⟨rest, hturn⟩, rfl⟩

/-- Settles O54: of the effects of a turn only WR.PIX and a reset write PV, and CHECK and RD.PIX read it. -/
theorem validBitsSetByWritePixClearedByReset : Obligations.ValidBitsSetByWritePixClearedByReset := by
  refine ⟨fun s t hstep k => ?_, fun s k hk => ?_, fun s v hlegal ⟨pos, hpos, hinvalid⟩ => ?_,
    fun s k => statusWord_getLsbD_valid s k, rfl⟩
  · rcases step_cases hstep with ⟨a, rest, hturn, heff⟩ | ⟨hnext, heff⟩ | ⟨rest, hturn, rfl⟩
    · simp only [not_nextIsReset_of_access hturn, not_false_eq_true, true_and, nextAccess_iff hturn]
      exact heff.valid_iff k
    · simp [hnext.not_nextIsReset, hnext.not_nextAccess, State.valid, heff.pv_eq]
    · have hreset : s.NextIsReset := ⟨rest, hturn⟩
      simp [hreset, State.valid]
  · have hread : s.readPix k = 0#32 := by simp [State.readPix, hk]
    rw [← hread]; rfl
  · have hall : ¬ (cmdPositions v).all (fun pos => s.valid pos) = true := fun hall => by
      simp [List.all_eq_true.mp hall pos hpos] at hinvalid
    rw [check_of_legalCommand s hlegal, if_neg hall]

/-- Settles O55: of the effects of a turn only a completion and a reset write OUT. -/
theorem outChangesOnlyAtCompletionOrReset : Obligations.OutChangesOnlyAtCompletionOrReset := by
  intro s t hstep hne
  rcases step_cases hstep with ⟨a, rest, -, heff⟩ | ⟨hnext, heff⟩ | ⟨rest, hturn, -⟩
  · exact absurd heff.out_eq hne
  · exact .inr ⟨hnext, heff.completes_of_out_ne hne⟩
  · exact .inl ⟨rest, hturn⟩

end Sys2Proof.Proofs
end

section
/-! SUPPORT. The statement of 20_memory.md: the step of a host's turn that is a bus operation (R42, R50). -/

namespace Sys2Proof.Machine

/-- A 32-bit access is decoded by its bus transaction word (30_encoding.md R62). -/
theorem decodeAccess_of_width_eq {a : Access} (hw : a.width = 32) : decodeAccess a = decodeBus a.bt a.data :=
  if_pos hw

theorem fetch_of_access {s : State} {a : Access} {rest : List Turn} (ht : s.turns = .access a :: rest) :
    fetch s = fetchAccess a (s.withTurns rest) := by
  rw [fetch, ht]

theorem fetchAccess_of_decodeAccess_ok {a : Access} {i : Instr} (hd : decodeAccess a = .ok i) (s : State) :
    fetchAccess a s = .run i s := by
  rw [fetchAccess, hd]

end Sys2Proof.Machine

namespace Sys2Proof.Proofs

open Sys2Proof.Machine

/-- Settles O47: at width 32 an access's decode is that of its bus word, so the turn fetches `i`, which the step
runs. -/
theorem stepRunsDecodedAccess : Obligations.StepRunsDecodedAccess := by
  intro s a rest i hturn hwidth hbus
  have hdecode : decodeAccess a = .ok i := (decodeAccess_of_width_eq hwidth).trans hbus
  exact step_of_fetch_run ((fetch_of_access hturn).trans (fetchAccess_of_decodeAccess_ok hdecode _))

end Sys2Proof.Proofs
end

section
/-! SUPPORT. The statements of 30_encoding.md: the decoder against the encoder (R62, R63, R68 to R70), and what METRIC
and PTE do not reach in the finished block (R65, R67). -/

namespace Sys2Proof.Machine

open Sys2Proof.Laws

/-! ### Words that agree under a mask and in the fields the mask leaves free -/

section
variable {n : Nat} {v v' : BitVec n}

theorem getLsbD_eq_of_and_eq {mask : BitVec n} {i : Nat} (h : v &&& mask = v' &&& mask)
    (hi : mask.getLsbD i = true) : v.getLsbD i = v'.getLsbD i := by
  simpa [hi] using congrArg (BitVec.getLsbD · i) h

/-- A word under a part of a mask, from the word under the mask. -/
theorem and_eq_of_and_eq {mask part c : BitVec n} (hpart : mask &&& part = part) (h : v &&& mask = c) :
    v &&& part = c &&& part := by
  rw [← h, BitVec.and_assoc, hpart]

theorem ne_of_and_ne {mask c : BitVec n} (h : v &&& mask = c) (x : BitVec n) (hx : x &&& mask ≠ c) : v ≠ x :=
  fun hv => hx (hv ▸ h)

theorem getLsbD_eq_of_extractLsb'_eq {start len i : Nat} (h : v.extractLsb' start len = v'.extractLsb' start len)
    (hi : start ≤ i ∧ i < start + len) : v.getLsbD i = v'.getLsbD i := by
  have hlt : i - start < len := by omega
  have hadd : start + (i - start) = i := by omega
  simpa [BitVec.getLsbD_extractLsb', hlt, hadd] using congrArg (BitVec.getLsbD · (i - start)) h

/-- The last field of an append, at its lowest bits. -/
theorem extractLsb'_append_low {a b : Nat} (x : BitVec a) (y : BitVec b) : (x ++ y).extractLsb' 0 b = y := by
  rw [BitVec.extractLsb'_append_eq_of_add_le (Nat.zero_add b).le, BitVec.extractLsb'_eq_self]

end

/-! ### The fields of a command word (30_encoding.md R63) -/

section
variable (mode : Mode) (metric : Metric) (w h : BitVec 3) (pte : Bool)

@[simp] theorem cmdMetric_encodeCmd : cmdMetric (encodeCmd mode metric w h pte) = codeOfMetric metric := by
  refine (BitVec.extractLsb'_append_eq_of_le (by decide)).trans ?_
  exact extractLsb'_append_low _ _

@[simp] theorem cmdW_encodeCmd : cmdW (encodeCmd mode metric w h pte) = w := by
  iterate 2 refine (BitVec.extractLsb'_append_eq_of_le (by decide)).trans ?_
  exact extractLsb'_append_low _ _

@[simp] theorem cmdH_encodeCmd : cmdH (encodeCmd mode metric w h pte) = h := by
  iterate 4 refine (BitVec.extractLsb'_append_eq_of_le (by decide)).trans ?_
  exact extractLsb'_append_low _ _

@[simp] theorem cmdPte_encodeCmd : cmdPte (encodeCmd mode metric w h pte) = pte := by
  unfold cmdPte encodeCmd
  iterate 7 rw [BitVec.getLsbD_append]
  simp

end

@[simp] theorem metricOfCode_codeOfMetric (m : Metric) : metricOfCode (codeOfMetric m) = m := by cases m <;> rfl

@[simp] theorem codeOfMetric_metricOfCode (c : BitVec 2) : codeOfMetric (metricOfCode c) = c := by
  revert c; decide

/-- The mask of the opcode match and the operand fields fix a command word (30_encoding.md R63, R69). -/
theorem commandWord_ext {v v' : Word} (hmask : v &&& opcodeMask = v' &&& opcodeMask)
    (hmetric : cmdMetric v = cmdMetric v') (hw : cmdW v = cmdW v') (hh : cmdH v = cmdH v')
    (hpte : cmdPte v = cmdPte v') : v = v' := by
  have hcover : ∀ i < 32, opcodeMask.getLsbD i = true ∨ (2 ≤ i ∧ i < 2 + 2) ∨ (4 ≤ i ∧ i < 4 + 3) ∨
      (8 ≤ i ∧ i < 8 + 3) ∨ i = 12 := by decide
  refine BitVec.eq_of_getLsbD_eq fun i hi => ?_
  rcases hcover i hi with hi | hi | hi | hi | rfl
  · exact getLsbD_eq_of_and_eq hmask hi
  · exact getLsbD_eq_of_extractLsb'_eq hmetric hi
  · exact getLsbD_eq_of_extractLsb'_eq hw hi
  · exact getLsbD_eq_of_extractLsb'_eq hh hi
  · exact hpte

/-- A word that matches a mode's opcode is the command word of that mode and of its own fields. -/
theorem encodeCmd_of_fields (mode : Mode) {v : Word} (h : v &&& opcodeMask = (codeOfMode mode).setWidth 32) :
    encodeCmd mode (metricOfCode (cmdMetric v)) (cmdW v) (cmdH v) (cmdPte v) = v := by
  apply commandWord_ext
  · rw [TableRow.encodeCmd_and_opcodeMask, h]
  all_goals simp

/-! ### The command decode (30_encoding.md R69, R70) -/

theorem decodeCmd_eq_ok_iff {v : Word} {i : Instr} : decodeCmd v = .ok i ↔
    (v &&& opcodeMask = 0#32 ∧ i = .encDxt1 (metricOfCode (cmdMetric v)) (cmdW v) (cmdH v) (cmdPte v)) ∨
    (v &&& opcodeMask = 1#32 ∧ i = .encDxt3 (metricOfCode (cmdMetric v)) (cmdW v) (cmdH v) (cmdPte v)) ∨
    (v &&& opcodeMask = 2#32 ∧ i = .encDxt5 (metricOfCode (cmdMetric v)) (cmdW v) (cmdH v) (cmdPte v)) := by
  constructor
  · unfold decodeCmd
    split
    · next h => rintro ⟨⟩; exact .inl ⟨h, rfl⟩
    · split
      · next h => rintro ⟨⟩; exact .inr (.inl ⟨h, rfl⟩)
      · split
        · next h => rintro ⟨⟩; exact .inr (.inr ⟨h, rfl⟩)
        · split <;> nofun
  · rintro (⟨h, rfl⟩ | ⟨h, rfl⟩ | ⟨h, rfl⟩) <;> simp [decodeCmd, h]

/-- The opcode mask takes the reserved bits and MODE. -/
theorem and_opcodeMask_eq (v : Word) : v &&& opcodeMask = v &&& reservedMask ||| (cmdMode v).setWidth 32 := by
  have hmode : (cmdMode v).setWidth 32 = v &&& 3#32 := by
    have hlt : v.toNat % 4 < 2 ^ 32 := (Nat.mod_lt _ (by decide)).trans (by decide)
    apply BitVec.eq_of_toNat_eq
    simpa [cmdMode, Nat.and_two_pow_sub_one_eq_mod v.toNat 2] using hlt
  rw [hmode, ← BitVec.and_or_distrib_left]
  rfl

theorem decodeCmd_of_reservedBits {v : Word} (h : v &&& reservedMask ≠ 0#32) :
    decodeCmd v = .error .reservedBits := by
  have hno (c : Word) (hc : c &&& reservedMask = 0#32) : v &&& opcodeMask ≠ c :=
    fun hv => h ((and_eq_of_and_eq (by decide) hv).trans hc)
  rw [decodeCmd, if_neg (hno _ (by decide)), if_neg (hno _ (by decide)), if_neg (hno _ (by decide)), if_pos h]

/-- Without reserved bits MODE alone decides whether a word decodes. -/
theorem decodeCmd_of_mode {v : Word} (h : v &&& reservedMask = 0#32) :
    if cmdMode v = 3#2 then decodeCmd v = .error .reservedMode else ∃ i, decodeCmd v = .ok i := by
  have hmatch : v &&& opcodeMask = (cmdMode v).setWidth 32 := by rw [and_opcodeMask_eq, h, BitVec.zero_or]
  have hcodes : ∀ c : BitVec 2, c = 0#2 ∨ c = 1#2 ∨ c = 2#2 ∨ c = 3#2 := by decide
  rcases hcodes (cmdMode v) with hc | hc | hc | hc <;> simp [decodeCmd, hmatch, hc, h]

theorem cmdMode_eq_three_iff (v : Word) : cmdMode v = 3#2 ↔ v.toNat % 4 = 3 := by
  simp [cmdMode, BitVec.toNat_eq]

/-- The command words that do not decode, by their error. -/
theorem decodeCmd_error_iff (v : Word) :
    (decodeCmd v = .error .reservedBits ↔ v &&& reservedMask ≠ 0#32) ∧
    (decodeCmd v = .error .reservedMode ↔ v &&& reservedMask = 0#32 ∧ cmdMode v = 3#2) := by
  by_cases hr : v &&& reservedMask = 0#32
  · have hdecode := decodeCmd_of_mode hr
    split at hdecode
    · next hm => simp [hdecode, hr, hm]
    · next hm =>
      obtain ⟨i, hi⟩ := hdecode
      simp [hi, hr, hm]
  · simp [decodeCmd_of_reservedBits hr, hr]

/-! ### The bus decode (30_encoding.md R62) -/

theorem decodeBus_eq_ok_iff {bt : BitVec 9} {data : Word} {i : Instr} : decodeBus bt data = .ok i ↔
    (bt = 0x000#9 ∧ i = .rdCmd) ∨ (bt = 0x100#9 ∧ i = .wrCmd data) ∨ (bt = 0x004#9 ∧ i = .rdStatus) ∨
    (bt &&& 0x1C3#9 = 0x040#9 ∧ i = .rdPix (bt.extractLsb' 2 4).toFin) ∨
    (bt &&& 0x1C3#9 = 0x140#9 ∧ i = .wrPix (bt.extractLsb' 2 4).toFin data) ∨
    (bt &&& 0x1F3#9 = 0x080#9 ∧ i = .rdOut (bt.extractLsb' 2 2).toFin) := by
  constructor
  · unfold decodeBus
    repeat' split
    all_goals rintro ⟨⟩
    all_goals simp [*]
  · rintro (⟨rfl, rfl⟩ | ⟨rfl, rfl⟩ | ⟨rfl, rfl⟩ | ⟨h, rfl⟩ | ⟨h, rfl⟩ | ⟨h, rfl⟩)
    · rfl
    · rfl
    · rfl
    · simp [decodeBus, h, ne_of_and_ne h]
    · simp [decodeBus, h, ne_of_and_ne h]
    · have hpix : bt &&& 0x1C3#9 = 0x080#9 := and_eq_of_and_eq (by decide) h
      simp [decodeBus, h, hpix, ne_of_and_ne h]

/-- The mask of a bus row and the operand field that starts at bit 2 fix a bus word (30_encoding.md R62). -/
theorem busWord_ext {bt bt' mask : BitVec 9} {len : Nat}
    (hcover : ∀ i < 9, mask.getLsbD i = true ∨ (2 ≤ i ∧ i < 2 + len))
    (hmask : bt &&& mask = bt' &&& mask) (hfield : bt.extractLsb' 2 len = bt'.extractLsb' 2 len) : bt = bt' := by
  refine BitVec.eq_of_getLsbD_eq fun i hi => ?_
  rcases hcover i hi with hi | hi
  · exact getLsbD_eq_of_and_eq hmask hi
  · exact getLsbD_eq_of_extractLsb'_eq hfield hi

/-- The operand field of a bus word that holds it at bit 2. -/
theorem extractLsb'_operand {a b : Nat} (x : BitVec a) (k : BitVec b) (y : BitVec 2) :
    (x ++ k ++ y).extractLsb' 2 b = k :=
  (BitVec.extractLsb'_append_eq_of_le le_rfl).trans (extractLsb'_append_low x k)

theorem decode_bus_of_ok {bt : BitVec 9} {data : Word} {i : Instr} (h : decodeBus bt data = .ok i) :
    decode (.bus bt data) = .ok i := by
  rw [decode, h]

theorem decode_cmd_of_ok {v : Word} {i : Instr} (h : decodeCmd v = .ok i) : decode (.cmd v) = .ok i := by
  rw [decode, h]

/-- A bus word in a row is the row's pattern with its own operand field, and its WE bit is the row's. -/
theorem bus_eq_of_row {pattern bt mask c : BitVec 9} {len : Nat} {data d : Word}
    (hcover : ∀ i < 9, mask.getLsbD i = true ∨ (2 ≤ i ∧ i < 2 + len)) (hpattern : pattern &&& mask = c)
    (hbt : bt &&& mask = c) (hfield : pattern.extractLsb' 2 len = bt.extractLsb' 2 len)
    (hwe : mask.getLsbD 8 = true) (hdata : (if c.getLsbD 8 then data else 0#32) = d) :
    Words.bus pattern d = .bus bt (if bt.getLsbD 8 then data else 0#32) := by
  have hword : pattern = bt := busWord_ext hcover (hpattern.trans hbt.symm) hfield
  have hbit : c.getLsbD 8 = bt.getLsbD 8 := by rw [← hbt, BitVec.getLsbD_and, hwe, Bool.and_true]
  rw [hword, ← hdata, hbit]

theorem encode_of_decodeBus {bt : BitVec 9} {data : Word} {i : Instr} (h : decodeBus bt data = .ok i) :
    encode i = .bus bt (if bt.getLsbD 8 then data else 0#32) := by
  rcases decodeBus_eq_ok_iff.mp h with
    ⟨rfl, rfl⟩ | ⟨rfl, rfl⟩ | ⟨rfl, rfl⟩ | ⟨hrow, rfl⟩ | ⟨hrow, rfl⟩ | ⟨hrow, rfl⟩
  · rfl
  · rfl
  · rfl
  · exact bus_eq_of_row (by decide) (TableRow.rdPix _) hrow (extractLsb'_operand _ _ _) rfl rfl
  · exact bus_eq_of_row (by decide) (TableRow.wrPix _ data) hrow (extractLsb'_operand _ _ _) rfl rfl
  · exact bus_eq_of_row (by decide) (TableRow.rdOut _) hrow (extractLsb'_operand _ _ _) rfl rfl

theorem encode_of_decodeCmd {v : Word} {i : Instr} (h : decodeCmd v = .ok i) : encode i = .cmd v := by
  rcases decodeCmd_eq_ok_iff.mp h with ⟨hv, rfl⟩ | ⟨hv, rfl⟩ | ⟨hv, rfl⟩
  · exact congrArg Words.cmd (encodeCmd_of_fields .dxt1 hv)
  · exact congrArg Words.cmd (encodeCmd_of_fields .dxt3 hv)
  · exact congrArg Words.cmd (encodeCmd_of_fields .dxt5 hv)

/-! ### Byte k of two finished blocks (44_block_packer.md R149) -/

theorem entry_zeroFill_congr {m : Mode} (ob ob' : Vector Byte 16) {k : Nat} (hk : k < modeSize m) :
    entry (zeroFill m ob) k = entry (zeroFill m ob') k := by
  have hk16 : k < 16 := lt_of_lt_of_le hk (modeSize_le m)
  rw [entry_zeroFill _ _ hk16, entry_zeroFill _ _ hk16, if_pos hk, if_pos hk]

theorem operands_n_bounds {o : Operands} (hw1 : 1 ≤ o.w) (hw4 : o.w ≤ 4) (hh1 : 1 ≤ o.h) (hh4 : o.h ≤ 4) :
    1 ≤ o.n ∧ o.n ≤ 16 :=
  ⟨Nat.mul_pos hw1 hh1, Nat.mul_le_mul hw4 hh4⟩

/-- Two PACKs of one size agree on byte k if their endpoint stores and the codes of each used position do. -/
theorem entry_pack_congr_of_stores {p p' : Config.Params} {o o' : Operands} {pix pix' : Vector Word 16}
    {wk wk' : Work} {k : Nat} (hw : o'.w = o.w) (hh : o'.h = o.h)
    (hend : entry (writeEndpoints o.mode (canon wk) (zeroFill o.mode (canon wk).ob)) k =
      entry (writeEndpoints o'.mode (canon wk') (zeroFill o'.mode (canon wk').ob)) k)
    (hcodes : ∀ pos ∈ usedPositions o.w o.h, ∀ ob ob', entry ob k = entry ob' k →
      entry (writePixelCodes p o pix (canon wk) ob pos) k = entry (writePixelCodes p' o' pix' (canon wk') ob' pos) k) :
    entry (pack p o pix wk).ob k = entry (pack p' o' pix' wk').ob k := by
  unfold pack
  rw [hw, hh]
  exact List.foldl_rel (r := fun ob ob' => entry ob k = entry ob' k) hend hcodes

theorem take_encodeBlock (p : Config.Params) {o : Operands} (pix : Vector Word 16) (wk : Work) {m : Nat}
    (h : m ≤ modeSize o.mode) : (encodeBlock p o pix wk).take m = (encodeWork p o pix wk).ob.toList.take m := by
  rw [encodeBlock, List.take_take, Nat.min_eq_left h]

/-! ### PTE in DXT3 and DXT5 (30_encoding.md R67) -/

/-- Where punch-through is off the colour code is CIDX (44_block_packer.md R140, R141). -/
theorem colorCode_eq_cidx (p : Config.Params) {o : Operands} (wk : Work) (px : Word)
    (h : o.mode ≠ .dxt1 ∨ o.pte = false) :
    colorCode p o wk px = cidx p o.metric wk.color0 wk.color1 (pixelColor px) := by
  unfold colorCode
  split
  · next hm =>
    have hpte : o.pte = false := h.resolve_left (not_not_intro hm)
    exact if_neg (by simp [hpte])
  · rfl
  · rfl

theorem encodeWork_pte (p : Config.Params) {o : Operands} (pix : Vector Word 16) (wk : Work) (pte : Bool)
    (hm : o.mode ≠ .dxt1) : encodeWork p { o with pte := pte } pix wk = encodeWork p o pix wk := by
  have hcode (wk : Work) (px : Word) : colorCode p { o with pte := pte } wk px = colorCode p o wk px :=
    (colorCode_eq_cidx (o := { o with pte := pte }) p wk px (.inl hm)).trans (colorCode_eq_cidx p wk px (.inl hm)).symm
  have hcodes : writePixelCodes p { o with pte := pte } pix = writePixelCodes p o pix := by
    funext wk ob pos
    rw [writePixelCodes, hcode]
    rfl
  unfold encodeWork pack
  rw [hcodes]
  rfl

/-! ### Alpha in DXT1 with PTE = 0 (30_encoding.md R67) -/

/-- In DXT1 the reducers' endpoints depend on the colours of the n samples only. -/
theorem endpointsAgree_reduce_of_dxt1 (p : Config.Params) {o : Operands} {wk wk' : Work} (hm : o.mode = .dxt1)
    (h1 : 1 ≤ o.n) (hn : o.n ≤ 16) (hc : ∀ k, k < o.n → entry wk.c k = entry wk'.c k) :
    EndpointsAgree o.mode (reduce p o wk) (reduce p o wk') := by
  obtain ⟨hcolor0, hcolor1⟩ := reduceColor_endpoints_congr p o.metric h1 hn hc
  exact {
    color0 := by rw [reduce_color0, reduce_color0, hcolor0]
    color1 := by rw [reduce_color1, reduce_color1, hcolor1]
    alpha0 := fun h => nomatch hm.symm.trans h
    alpha1 := fun h => nomatch hm.symm.trans h }

/-- In DXT1 with PTE = 0 the codes of position pos depend on its colour and the endpoints only. -/
theorem entry_writePixelCodes_congr_of_color (p : Config.Params) {o : Operands} {pix pix' : Vector Word 16}
    {wk wk' : Work} {ob ob' : Vector Byte 16} {pos k : Nat} (hm : o.mode = .dxt1) (hpte : o.pte = false)
    (hwk : EndpointsAgree o.mode wk wk') (hpix : pixelColor (entry pix pos) = pixelColor (entry pix' pos))
    (h : entry ob k = entry ob' k) :
    entry (writePixelCodes p o pix wk ob pos) k = entry (writePixelCodes p o pix' wk' ob' pos) k := by
  simp only [writePixelCodes, writeAlpha, hm, colorCode_eq_cidx p _ _ (.inr hpte), hwk.color0, hwk.color1, hpix]
  exact entry_writeCode_congr _ _ _ h

/-- In DXT1 with PTE = 0 the bytes of a block are the same for any two pixel arrays whose colours agree at the used
positions. -/
theorem entry_encodeWork_congr_of_color (p : Config.Params) {o : Operands} {pix pix' : Vector Word 16} (wk : Work)
    {k : Nat} (hm : o.mode = .dxt1) (hpte : o.pte = false) (hw1 : 1 ≤ o.w) (hw4 : o.w ≤ 4) (hh1 : 1 ≤ o.h)
    (hh4 : o.h ≤ 4)
    (hpix : ∀ pos ∈ usedPositions o.w o.h, pixelColor (entry pix pos) = pixelColor (entry pix' pos))
    (hk : k < modeSize o.mode) : entry (encodeWork p o pix wk).ob k = entry (encodeWork p o pix' wk).ob k := by
  obtain ⟨hn1, hn16⟩ := operands_n_bounds hw1 hw4 hh1 hh4
  have hends : EndpointsAgree o.mode (reduce p o (collect o.w o.h pix wk)) (reduce p o (collect o.w o.h pix' wk)) := by
    refine endpointsAgree_reduce_of_dxt1 p hm hn1 hn16 fun i hi => ?_
    rw [entry_collect_c _ _ _ _ hi (by omega), entry_collect_c _ _ _ _ hi (by omega),
      hpix _ (samplePos_mem_usedPositions hw1 hi)]
  exact entry_pack_congr_of_stores rfl rfl (entry_writeEndpoints_congr hends.canon (entry_zeroFill_congr _ _ hk))
    fun pos hpos _ _ hob => entry_writePixelCodes_congr_of_color p hm hpte hends.canon (hpix pos hpos) hob

/-! ### The alpha half of a DXT5 block (30_encoding.md R65, 43_alpha_reducer.md R126) -/

/-- A code leaves the bytes before its field. -/
theorem entry_writeCode_of_lt {L : Nat} (base pos : Nat) (c : BitVec L) (ob : Vector Byte 16) {k : Nat}
    (hk : k < base) : entry (writeCode base pos c ob) k = entry ob k := by
  unfold writeCode
  refine List.foldlRecOn (motive := fun ob' => entry ob' k = entry ob k) _ _ rfl fun ob' hob e _ => ?_
  split
  · exact (entry_setBit_ne _ _ _ _ (by omega)).trans hob
  · exact hob

/-- The endpoint stores of DXT5 on bytes 0 to 7: the alpha endpoints, and no colour. -/
theorem entry_writeEndpoints_dxt5 (wk : Work) (ob : Vector Byte 16) {k : Nat} (hk : k < 8) :
    entry (writeEndpoints .dxt5 wk ob) k = if k = 1 then wk.alpha1 else if k = 0 then wk.alpha0 else entry ob k := by
  have h16 : k < 16 := by omega
  have hcolor : k ≠ 8 ∧ k ≠ 9 ∧ k ≠ 10 ∧ k ≠ 11 := by omega
  simp [writeEndpoints, entry_storeByte, entry_write16le, colorBase, h16, hcolor]

/-- The codes of a position in DXT5 on bytes 0 to 7: its alpha code, and no colour code. -/
theorem entry_writePixelCodes_dxt5 (p : Config.Params) {o : Operands} (pix : Vector Word 16) (wk : Work)
    (ob : Vector Byte 16) (pos : Nat) {k : Nat} (hm : o.mode = .dxt5) (hk : k < 8) :
    entry (writePixelCodes p o pix wk ob pos) k =
      entry (writeCode 2 pos (acode wk.alpha0 wk.alpha1 (pixelAlpha (entry pix pos))) ob) k := by
  simp only [writePixelCodes, writeAlpha, hm]
  exact entry_writeCode_congr _ _ _ (entry_writeCode_of_lt _ _ _ _ (hk.trans (by decide)))

/-- In DXT5 the alpha endpoints after the reducers depend on the alphas of the n samples only. -/
theorem reduce_alphas_congr (p p' : Config.Params) {o o' : Operands} {wk wk' : Work} (hm : o.mode = .dxt5)
    (hm' : o'.mode = .dxt5) (hn : o'.n = o.n) (h1 : 1 ≤ o.n) (h16 : o.n ≤ 16)
    (ha : ∀ k, k < o.n → entry wk.a k = entry wk'.a k) :
    (reduce p o wk).alpha0 = (reduce p' o' wk').alpha0 ∧ (reduce p o wk).alpha1 = (reduce p' o' wk').alpha1 := by
  simp only [reduce, hm, hm', hn]
  exact reduceAlpha_endpoints_congr h1 h16 (by simpa using ha)

/-- Bytes 0 to 7 of a DXT5 block are the same for any two metrics, parameters and pixel arrays whose alphas agree at
the used positions. -/
theorem entry_encodeWork_congr_of_alpha (p p' : Config.Params) {o o' : Operands} {pix pix' : Vector Word 16}
    (wk wk' : Work) {k : Nat} (hm : o.mode = .dxt5) (hm' : o'.mode = .dxt5) (hw : o'.w = o.w) (hh : o'.h = o.h)
    (hw1 : 1 ≤ o.w) (hw4 : o.w ≤ 4) (hh1 : 1 ≤ o.h) (hh4 : o.h ≤ 4)
    (hpix : ∀ pos ∈ usedPositions o.w o.h, pixelAlpha (entry pix pos) = pixelAlpha (entry pix' pos)) (hk : k < 8) :
    entry (encodeWork p o pix wk).ob k = entry (encodeWork p' o' pix' wk').ob k := by
  obtain ⟨hn1, hn16⟩ := operands_n_bounds hw1 hw4 hh1 hh4
  have hn : o'.n = o.n := by rw [Operands.n, hw, hh, Operands.n]
  obtain ⟨halpha0, halpha1⟩ := reduce_alphas_congr p p' hm hm' hn hn1 hn16
    (wk := collect o.w o.h pix wk) (wk' := collect o'.w o'.h pix' wk') fun i hi => by
      rw [hw, hh, entry_collect_a _ _ _ _ hi (by omega), entry_collect_a _ _ _ _ hi (by omega),
        hpix _ (samplePos_mem_usedPositions hw1 hi)]
  refine entry_pack_congr_of_stores hw hh ?_ fun pos hpos ob ob' hob => ?_
  · rw [hm, hm', entry_writeEndpoints_dxt5 _ _ hk, entry_writeEndpoints_dxt5 _ _ hk, canon_alpha0, canon_alpha0,
      canon_alpha1, canon_alpha1, halpha0, halpha1,
      entry_zeroFill_congr (m := .dxt5) _ (canon (reduce p' o' (collect o'.w o'.h pix' wk'))).ob (hk.trans (by decide))]
  · rw [entry_writePixelCodes_dxt5 _ _ _ _ _ hm hk, entry_writePixelCodes_dxt5 _ _ _ _ _ hm' hk, canon_alpha0,
      canon_alpha0, canon_alpha1, canon_alpha1, halpha0, halpha1, hpix pos hpos]
    exact entry_writeCode_congr _ _ _ hob

end Sys2Proof.Machine

namespace Sys2Proof.Proofs

open Sys2Proof.Machine Sys2Proof.Laws

/-- Settles O44: each instruction's words match its row, whose fields are the operands. -/
theorem decodeOfEncodeIsIdentity : Obligations.DecodeOfEncodeIsIdentity := by
  intro i
  cases i with
  | rdCmd => rfl
  | wrCmd v => rfl
  | rdStatus => rfl
  | rdPix k =>
    exact decode_bus_of_ok (decodeBus_eq_ok_iff.mpr
      (.inr (.inr (.inr (.inl ⟨TableRow.rdPix k, by rw [extractLsb'_operand]⟩)))))
  | wrPix k v =>
    exact decode_bus_of_ok (decodeBus_eq_ok_iff.mpr
      (.inr (.inr (.inr (.inr (.inl ⟨TableRow.wrPix k v, by rw [extractLsb'_operand]⟩))))))
  | rdOut j =>
    exact decode_bus_of_ok (decodeBus_eq_ok_iff.mpr
      (.inr (.inr (.inr (.inr (.inr ⟨TableRow.rdOut j, by rw [extractLsb'_operand]⟩))))))
  | encDxt1 metric w h pte =>
    exact decode_cmd_of_ok (decodeCmd_eq_ok_iff.mpr (.inl ⟨TableRow.encDxt1 metric w h pte, by simp⟩))
  | encDxt3 metric w h pte =>
    exact decode_cmd_of_ok (decodeCmd_eq_ok_iff.mpr (.inr (.inl ⟨TableRow.encDxt3 metric w h pte, by simp⟩)))
  | encDxt5 metric w h pte =>
    exact decode_cmd_of_ok (decodeCmd_eq_ok_iff.mpr (.inr (.inr ⟨TableRow.encDxt5 metric w h pte, by simp⟩)))

/-- Settles O42: only CIDX1 reads PTE, and only with PTE = 1 does it read alpha. -/
theorem punchThroughOnlyInDxt1 : Obligations.PunchThroughOnlyInDxt1 := by
  refine ⟨fun p o pix wk pte hm => ?_, fun p o pix pix' wk hm hpte hw1 hw4 hh1 hh4 hpix => ?_⟩
  · rw [encodeBlock, encodeWork_pte p pix wk pte hm, encodeBlock]
  · exact take_toList_congr fun _ hk =>
      entry_encodeWork_congr_of_color p wk hm hpte hw1 hw4 hh1 hh4 hpix hk

/-- Settles O43: REDUCE_ALPHA reads alphas only, and the colour stores of DXT5 stand from byte 8 on. -/
theorem dxt5AlphaHalfIgnoresColour : Obligations.Dxt5AlphaHalfIgnoresColour := by
  intro p p' o o' pix pix' wk wk' hm hm' hw hh hw1 hw4 hh1 hh4 hpix
  rw [take_encodeBlock _ _ _ (hm ▸ by decide), take_encodeBlock _ _ _ (hm' ▸ by decide)]
  exact take_toList_congr fun _ hk =>
    entry_encodeWork_congr_of_alpha p p' wk wk' hm hm' hw hh hw1 hw4 hh1 hh4 hpix hk

/-- Settles O45: a word that decodes matches a row, whose mask and operand fields fix the word. -/
theorem decodedWordsEncodeBack : Obligations.DecodedWordsEncodeBack := by
  refine ⟨fun bt data i h => encode_of_decodeBus h, fun v i h => encode_of_decodeCmd h, fun v => ?_⟩
  rw [← cmdMode_eq_three_iff]
  exact decodeCmd_error_iff v

/-- Settles O46, by evaluating the decoder on the spec's words. -/
theorem specWordsDecodeAsWritten : Obligations.SpecWordsDecodeAsWritten := by
  unfold Obligations.SpecWordsDecodeAsWritten
  decide

end Sys2Proof.Proofs
end

section
/-! SUPPORT. The statements of 40_sample_collector.md: where the samples stand (R80, R82), and what COLLECT writes and
keeps (R83). -/

namespace Sys2Proof.Machine

/-! ### The numbering of the samples (40_sample_collector.md R82) -/

/-- Row y of the clipped block holds the samples from w * y on. -/
theorem samplePos_mul_add {w x : Nat} (hx : x < w) (y : Nat) : samplePos w (w * y + x) = x + 4 * y := by
  rw [samplePos, Nat.mul_add_mod, Nat.mod_eq_of_lt hx, Nat.mul_add_div (by omega), Nat.div_eq_of_lt hx, Nat.add_zero]

theorem map_samplePos_range (w h : Nat) : (List.range (w * h)).map (samplePos w) = usedPositions w h := by
  induction h with
  | zero => rfl
  | succ h ih =>
    have hrow : ((List.range w).map (w * h + ·)).map (samplePos w) = (List.range w).map (· + 4 * h) := by
      rw [List.map_map]
      exact List.map_congr_left fun x hx => samplePos_mul_add (List.mem_range.mp hx) h
    rw [Nat.mul_succ, List.range_add, List.map_append, ih, hrow]
    simp [usedPositions, List.range_succ]

/-- A row is at most 4 wide, so position modulo and divided by 4 give back the sample's column and row. -/
theorem samplePos_injective {w : Nat} (hw1 : 1 ≤ w) (hw4 : w ≤ 4) : Function.Injective (samplePos w) := by
  intro i k hik
  have hi : i % w < w := Nat.mod_lt _ hw1
  have hk : k % w < w := Nat.mod_lt _ hw1
  simp only [samplePos] at hik
  have hcol : i % w = k % w := by omega
  have hrow : i / w = k / w := by omega
  rw [← Nat.mod_add_div i w, ← Nat.mod_add_div k w, hcol, hrow]

theorem nodup_usedPositions {w h : Nat} (hw1 : 1 ≤ w) (hw4 : w ≤ 4) : (usedPositions w h).Nodup := by
  rw [← map_samplePos_range]
  exact List.nodup_range.map (samplePos_injective hw1 hw4)

theorem samplePos_lt {w h k : Nat} (hw1 : 1 ≤ w) (hw4 : w ≤ 4) (hh4 : h ≤ 4) (hk : k < w * h) :
    samplePos w k < 16 := by
  obtain ⟨x, y, hx, hy, hpos⟩ := mem_usedPositions.mp (samplePos_mem_usedPositions hw1 hk)
  omega

/-! ### What COLLECT keeps (40_sample_collector.md R83) -/

theorem entry_collect_c_of_le (w h : Nat) (pix : Vector Word 16) (wk : Work) {k : Nat} (hk : w * h ≤ k)
    (h16 : k < 16) : entry (collect w h pix wk).c k = entry wk.c k := by
  simp [collect, entry_ofFn _ _ h16, entry_eq_getElem _ _ h16, Nat.not_lt.mpr hk]

theorem entry_collect_a_of_le (w h : Nat) (pix : Vector Word 16) (wk : Work) {k : Nat} (hk : w * h ≤ k)
    (h16 : k < 16) : entry (collect w h pix wk).a k = entry wk.a k := by
  simp [collect, entry_ofFn _ _ h16, entry_eq_getElem _ _ h16, Nat.not_lt.mpr hk]

/-- COLLECT writes the sample arrays only. -/
theorem collect_frame (w h : Nat) (pix : Vector Word 16) (wk : Work) :
    collect w h pix wk = { wk with c := (collect w h pix wk).c, a := (collect w h pix wk).a } := rfl

end Sys2Proof.Machine

namespace Sys2Proof.Proofs

open Sys2Proof.Machine

/-- Settles O23: a sample's position is one of the 16 pixels, and slots from n on keep their content. -/
theorem collectGathersClippedBlock : Obligations.CollectGathersClippedBlock := by
  intro w h pix wk hw1 hw4 _ hh4
  refine ⟨_, _, collect_frame w h pix wk, fun k h16 => ⟨fun hk => ?_, fun hk => ?_⟩⟩
  · have hpos : samplePos w k < 16 := samplePos_lt hw1 hw4 hh4 hk
    refine ⟨pix[samplePos w k], Vector.getElem?_eq_getElem hpos, ?_, ?_⟩
    · rw [entry_collect_c w h pix wk hk h16, entry_eq_getElem _ _ hpos, pixelColor]
    · rw [entry_collect_a w h pix wk hk h16, entry_eq_getElem _ _ hpos, pixelAlpha]
  · have hle : w * h ≤ k := Nat.not_lt.mp hk
    exact ⟨entry_collect_c_of_le w h pix wk hle h16, entry_collect_a_of_le w h pix wk hle h16⟩

/-- Settles O22, by the rows of the block: each adds W samples, and no two samples share a position. -/
theorem samplesNumberUsedPositionsRowMajor : Obligations.SamplesNumberUsedPositionsRowMajor := by
  intro w h hw1 hw4 _ _
  exact ⟨map_samplePos_range w h, nodup_usedPositions hw1 hw4, fun _ => mem_usedPositions⟩

end Sys2Proof.Proofs
end

section
/-! SUPPORT. The statements of 41_distance_metrics.md: SHRR (R90), the values, symmetry and signs of the metrics (R92 to
R96), where they are 0 (R99), and how large a pair cost gets (R97). -/

namespace Sys2Proof.Machine

/-! ### SHRR (R90) -/

section
variable {x k : Int} {n p q : Config.ShiftCount}

/-- SHRR is the greatest integer k with k * 2^n ≤ x + 2^(n-1); every fact about SHRR below rests on this. -/
theorem le_shrr_iff : k ≤ shrr x n ↔ k * 2 ^ n.val ≤ x + 2 ^ (n.val - 1) :=
  Int.le_ediv_iff_mul_le (by positivity)

theorem le_shrr_of_mul_le (h : k * 2 ^ n.val ≤ x) : k ≤ shrr x n := by
  have hhalf : (0 : Int) < 2 ^ (n.val - 1) := by positivity
  exact le_shrr_iff.mpr (by linarith)

/-- The half that SHRR adds does not carry a multiple of 2^n to the next one. -/
theorem shrr_le_of_le_mul (h : x ≤ k * 2 ^ n.val) : shrr x n ≤ k := by
  by_contra hlt
  have hnext : (k + 1) * 2 ^ n.val ≤ x + 2 ^ (n.val - 1) := le_shrr_iff.mp (by omega)
  have hhalf : (0 : Int) < 2 ^ (n.val - 1) := by positivity
  have htwice : 2 * 2 ^ (n.val - 1) = (2 : Int) ^ n.val := mul_pow_sub_one (Nat.ne_of_gt n.property) 2
  linarith

theorem shrr_nonneg (h : 0 ≤ x) : 0 ≤ shrr x n := le_shrr_of_mul_le (by rwa [zero_mul])

theorem shrr_nonpos (h : x ≤ 0) : shrr x n ≤ 0 := shrr_le_of_le_mul (by rwa [zero_mul])

@[simp] theorem shrr_zero : shrr 0 n = 0 := le_antisymm (shrr_nonpos le_rfl) (shrr_nonneg le_rfl)

theorem lt_pow_of_shrr_nonpos (h : shrr x n ≤ 0) : x < 2 ^ n.val := by
  by_contra hle
  have hone : 1 ≤ shrr x n := le_shrr_of_mul_le (by linarith)
  omega

theorem abs_shrr_le (h : |x| ≤ k * 2 ^ n.val) : |shrr x n| ≤ k := by
  obtain ⟨hlo, hhi⟩ := abs_le.mp h
  exact abs_le.mpr ⟨le_shrr_of_mul_le (by linarith), shrr_le_of_le_mul hhi⟩

theorem le_abs_shrr (h : k * 2 ^ n.val ≤ |x|) : k ≤ |shrr x n| := by
  rcases le_abs.mp h with hpos | hneg
  · exact le_abs.mpr (.inl (le_shrr_of_mul_le hpos))
  · have hle : shrr x n ≤ -k := shrr_le_of_le_mul (by linarith)
    exact le_abs.mpr (.inr (by omega))

/-- Two shifted copies of one number never have opposite signs. -/
theorem shrr_mul_shrr_nonneg : 0 ≤ shrr x p * shrr x q := by
  rcases le_total 0 x with h | h
  · exact mul_nonneg (shrr_nonneg h) (shrr_nonneg h)
  · exact mul_nonneg_of_nonpos_of_nonpos (shrr_nonpos h) (shrr_nonpos h)

theorem shrr_mul_shrr_le {l : Int} (hp : |x| ≤ k * 2 ^ p.val) (hq : |x| ≤ l * 2 ^ q.val) :
    shrr x p * shrr x q ≤ k * l := by
  have hk : |shrr x p| ≤ k := abs_shrr_le hp
  calc shrr x p * shrr x q
      ≤ |shrr x p * shrr x q| := le_abs_self _
    _ = |shrr x p| * |shrr x q| := abs_mul _ _
    _ ≤ k * l := mul_le_mul hk (abs_shrr_le hq) (abs_nonneg _) ((abs_nonneg _).trans hk)

theorem le_shrr_mul_shrr {l : Int} (hl : 0 ≤ l) (hp : k * 2 ^ p.val ≤ |x|) (hq : l * 2 ^ q.val ≤ |x|) :
    k * l ≤ shrr x p * shrr x q := by
  calc k * l
      ≤ |shrr x p| * |shrr x q| := mul_le_mul (le_abs_shrr hp) (le_abs_shrr hq) hl (abs_nonneg _)
    _ = |shrr x p * shrr x q| := (abs_mul _ _).symm
    _ = shrr x p * shrr x q := abs_of_nonneg shrr_mul_shrr_nonneg

end

/-! ### Components -/

theorem mul_self_le_of_abs_le {t m : Int} (h : |t| ≤ m) : t * t ≤ m * m := by
  rw [← abs_mul_abs_self]
  exact mul_self_le_mul_self (abs_nonneg t) h

theorem comp_nonneg (x : Byte) : 0 ≤ comp x := Int.natCast_nonneg _

theorem comp_le (x : Byte) : comp x ≤ 255 := by
  have : x.toNat < 256 := x.isLt
  unfold comp
  omega

theorem comp_inj {x y : Byte} : comp x = comp y ↔ x = y := Nat.cast_inj.trans BitVec.toNat_inj

theorem color_ext {a b : Color} (hr : comp a.r = comp b.r) (hg : comp a.g = comp b.g) (hb : comp a.b = comp b.b) :
    a = b := by
  cases a
  cases b
  simp_all [comp_inj]

theorem abs_comp_sub_le (x y : Byte) : |comp x - comp y| ≤ 255 :=
  abs_sub_le_of_nonneg_of_le (comp_nonneg x) (comp_le x) (comp_nonneg y) (comp_le y)

/-- The difference of squared components that SRGB weights (R95). -/
def sqDiff (x y : Byte) : Int := comp x * comp x - comp y * comp y

@[simp] theorem sqDiff_self (x : Byte) : sqDiff x x = 0 := sub_self _

theorem comp_eq_of_sqDiff_eq_zero {x y : Byte} (h : sqDiff x y = 0) : comp x = comp y :=
  (mul_self_inj (comp_nonneg x) (comp_nonneg y)).mp (sub_eq_zero.mp h)

theorem abs_sqDiff_le (x y : Byte) : |sqDiff x y| ≤ 65025 := by
  have hsq : ∀ z : Byte, comp z * comp z ≤ 255 * 255 := fun z => mul_self_le_mul_self (comp_nonneg z) (comp_le z)
  exact abs_sub_le_of_nonneg_of_le (mul_self_nonneg _) (hsq x) (mul_self_nonneg _) (hsq y)

/-! ### DIST_ALPHA and AVG (R92, R96): the latter is a sum of three of the former -/

theorem distAlpha_eq_sq (x y : Byte) : distAlpha x y = ((x.toNat : Int) - y.toNat) ^ 2 := (sq _).symm

theorem distAlpha_comm (x y : Byte) : distAlpha x y = distAlpha y x := by
  rw [distAlpha_eq_sq, distAlpha_eq_sq, sub_sq_comm]

theorem distAlpha_nonneg (x y : Byte) : 0 ≤ distAlpha x y := mul_self_nonneg _

theorem distAlpha_eq_zero_iff {x y : Byte} : distAlpha x y = 0 ↔ x = y := by
  rw [distAlpha, mul_self_eq_zero, sub_eq_zero, comp_inj]

theorem distAlpha_le (x y : Byte) : distAlpha x y ≤ 65025 := mul_self_le_of_abs_le (abs_comp_sub_le x y)

theorem distAvg_eq (a b : Color) : distAvg a b = distAlpha a.r b.r + distAlpha a.g b.g + distAlpha a.b b.b := rfl

theorem distAvg_comm (a b : Color) : distAvg a b = distAvg b a := by
  simp only [distAvg_eq, distAlpha_comm a.r, distAlpha_comm a.g, distAlpha_comm a.b]

theorem distAvg_self (a : Color) : distAvg a a = 0 := by simp [distAvg]

theorem distAvg_nonneg (a b : Color) : 0 ≤ distAvg a b :=
  add_nonneg (add_nonneg (distAlpha_nonneg _ _) (distAlpha_nonneg _ _)) (distAlpha_nonneg _ _)

theorem distAvg_le (a b : Color) : distAvg a b ≤ 195075 :=
  add_le_add (add_le_add (distAlpha_le _ _) (distAlpha_le _ _)) (distAlpha_le _ _)

theorem eq_of_distAvg_nonpos {a b : Color} (h : distAvg a b ≤ 0) : a = b := by
  have hr := distAlpha_nonneg a.r b.r
  have hg := distAlpha_nonneg a.g b.g
  have hb := distAlpha_nonneg a.b b.b
  rw [distAvg_eq] at h
  have heq : ∀ {x y : Byte}, distAlpha x y = 0 → comp x = comp y := fun h0 =>
    congrArg comp (distAlpha_eq_zero_iff.mp h0)
  exact color_ext (heq (by omega)) (heq (by omega)) (heq (by omega))

/-! ### LUMA (R93, R94): a form in y, u and v -/

/-- LUMA's weighted difference y. -/
def lumaDiff (w : Config.Weights) (a b : Color) : Int :=
  (comp a.r - comp b.r) * w.wr + (comp a.g - comp b.g) * w.wg + (comp a.b - comp b.b) * w.wb

/-- LUMA's result from y, u and v. -/
def lumaForm (y u v : Int) : Int := 2 * y * y + shrr (u * u) ⟨3, by decide⟩ + shrr (v * v) ⟨4, by decide⟩

theorem distLuma_eq (w : Config.Weights) (a b : Color) :
    distLuma w a b = lumaForm (lumaDiff w a b) ((comp a.r - comp b.r) * Config.kLuma - lumaDiff w a b)
      ((comp a.b - comp b.b) * Config.kLuma - lumaDiff w a b) := rfl

theorem lumaForm_eq_div (y u v : Int) : lumaForm y u v = 2 * y ^ 2 + (u ^ 2 + 4) / 8 + (v ^ 2 + 8) / 16 := by
  rw [sq u, sq v, sq y, ← mul_assoc]
  rfl

@[simp] theorem lumaForm_neg (y u v : Int) : lumaForm (-y) (-u) (-v) = lumaForm y u v := by
  simp [lumaForm]

@[simp] theorem lumaForm_zero : lumaForm 0 0 0 = 0 := rfl

theorem lumaForm_nonneg (y u v : Int) : 0 ≤ lumaForm y u v := by
  have hy : 0 ≤ 2 * y * y := by rw [mul_assoc]; exact mul_nonneg (by decide) (mul_self_nonneg y)
  exact add_nonneg (add_nonneg hy (shrr_nonneg (mul_self_nonneg u))) (shrr_nonneg (mul_self_nonneg v))

theorem bounds_of_lumaForm_nonpos {y u v : Int} (h : lumaForm y u v ≤ 0) : y = 0 ∧ |u| < 4 ∧ |v| < 4 := by
  have hy : 0 ≤ y * y := mul_self_nonneg y
  have hu : 0 ≤ shrr (u * u) ⟨3, by decide⟩ := shrr_nonneg (mul_self_nonneg u)
  have hv : 0 ≤ shrr (v * v) ⟨4, by decide⟩ := shrr_nonneg (mul_self_nonneg v)
  unfold lumaForm at h
  have hu8 : u * u < 2 ^ 3 := lt_pow_of_shrr_nonpos (n := ⟨3, by decide⟩) (by linarith)
  have hv16 : v * v < 2 ^ 4 := lt_pow_of_shrr_nonpos (n := ⟨4, by decide⟩) (by linarith)
  refine ⟨mul_self_eq_zero.mp (by linarith), ?_, ?_⟩
  · exact abs_lt_of_sq_lt_sq (by linarith) (by decide)
  · exact abs_lt_of_sq_lt_sq (by linarith) (by decide)

theorem lumaForm_lt {y u v : Int} (hy : |y| ≤ 90000) (hu : |u| ≤ 90000) (hv : |v| ≤ 90000) :
    lumaForm y u v < 2 ^ 37 := by
  have hyy : y * y ≤ 90000 * 90000 := mul_self_le_of_abs_le hy
  have huu : shrr (u * u) ⟨3, by decide⟩ ≤ 1012500000 := shrr_le_of_le_mul (mul_self_le_of_abs_le hu)
  have hvv : shrr (v * v) ⟨4, by decide⟩ ≤ 506250000 := shrr_le_of_le_mul (mul_self_le_of_abs_le hv)
  unfold lumaForm
  linarith

theorem distLuma_comm (w : Config.Weights) (a b : Color) : distLuma w a b = distLuma w b a := by
  rw [distLuma_eq w b a, ← lumaForm_neg, distLuma_eq]
  congr 1 <;> unfold lumaDiff <;> ring

theorem distLuma_nonneg (w : Config.Weights) (a b : Color) : 0 ≤ distLuma w a b := lumaForm_nonneg _ _ _

@[simp] theorem distLuma_self (w : Config.Weights) (a : Color) : distLuma w a a = 0 := by
  simp [distLuma_eq, lumaDiff]

/-- LUMA tells colours apart as soon as it weights green: red and blue show in u and v by the coefficient 202. -/
theorem eq_of_distLuma_nonpos {w : Config.Weights} (hw : w.wg ≠ 0) {a b : Color} (h : distLuma w a b ≤ 0) :
    a = b := by
  rw [distLuma_eq] at h
  obtain ⟨hy, hu, hv⟩ := bounds_of_lumaForm_nonpos h
  rw [hy, sub_zero, Config.kLuma, abs_lt] at hu hv
  have hr : comp a.r - comp b.r = 0 := by omega
  have hb : comp a.b - comp b.b = 0 := by omega
  have hg : comp a.g - comp b.g = 0 := by simpa [lumaDiff, hr, hb, hw] using hy
  exact color_ext (sub_eq_zero.mp hr) (sub_eq_zero.mp hg) (sub_eq_zero.mp hb)

theorem abs_lumaDiff_le (w : Config.Weights) (a b : Color) :
    |lumaDiff w a b| ≤ 255 * (|w.wr| + |w.wg| + |w.wb|) := by
  have hterm : ∀ (x y : Byte) (t : Int), |(comp x - comp y) * t| ≤ 255 * |t| := fun x y t => by
    rw [abs_mul]
    exact mul_le_mul_of_nonneg_right (abs_comp_sub_le x y) (abs_nonneg t)
  calc |lumaDiff w a b|
      ≤ |(comp a.r - comp b.r) * w.wr| + |(comp a.g - comp b.g) * w.wg| + |(comp a.b - comp b.b) * w.wb| :=
        abs_add_three _ _ _
    _ ≤ 255 * |w.wr| + 255 * |w.wg| + 255 * |w.wb| := by gcongr <;> exact hterm _ _ _
    _ = 255 * (|w.wr| + |w.wg| + |w.wb|) := by ring

theorem distLuma_lt {w : Config.Weights} (hw : |w.wr| + |w.wg| + |w.wb| ≤ 150) (a b : Color) :
    distLuma w a b < 2 ^ 37 := by
  have hy := abs_le.mp (abs_lumaDiff_le w a b)
  have hr := abs_le.mp (abs_comp_sub_le a.r b.r)
  have hb := abs_le.mp (abs_comp_sub_le a.b b.b)
  rw [distLuma_eq, Config.kLuma]
  apply lumaForm_lt <;> rw [abs_le] <;> omega

/-! ### SRGB (R95): a form in y, u and v -/

/-- SRGB's weighted difference y, of squared components. -/
def srgbDiff (w : Config.Weights) (a b : Color) : Int :=
  sqDiff a.r b.r * w.wr + sqDiff a.g b.g * w.wg + sqDiff a.b b.b * w.wb

/-- One of SRGB's three summands, from y, u or v. -/
def srgbTerm (pre : Config.SrgbPre) (q : Config.ShiftCount) (t : Int) : Int := shrr (shrr t pre.p1 * shrr t pre.p2) q

/-- SRGB's result from y, u and v. -/
def srgbForm (p : Config.Params) (y u v : Int) : Int :=
  srgbTerm p.srgbPre p.srgbPost.q1 y + srgbTerm p.srgbPre p.srgbPost.q2 u + srgbTerm p.srgbPre p.srgbPost.q3 v

theorem distSrgb_eq (p : Config.Params) (a b : Color) :
    distSrgb p a b = srgbForm p (srgbDiff p.wySrgb a b) (sqDiff a.r b.r * p.kSrgb - srgbDiff p.wySrgb a b)
      (sqDiff a.b b.b * p.kSrgb - srgbDiff p.wySrgb a b) := rfl

@[simp] theorem srgbTerm_zero (pre : Config.SrgbPre) (q : Config.ShiftCount) : srgbTerm pre q 0 = 0 := by
  simp [srgbTerm]

theorem srgbTerm_nonneg (pre : Config.SrgbPre) (q : Config.ShiftCount) (t : Int) : 0 ≤ srgbTerm pre q t :=
  shrr_nonneg shrr_mul_shrr_nonneg

theorem distSrgb_nonneg (p : Config.Params) (a b : Color) : 0 ≤ distSrgb p a b :=
  add_nonneg (add_nonneg (srgbTerm_nonneg _ _ _) (srgbTerm_nonneg _ _ _)) (srgbTerm_nonneg _ _ _)

@[simp] theorem distSrgb_self (p : Config.Params) (a : Color) : distSrgb p a a = 0 := by
  simp [distSrgb_eq, srgbDiff, srgbForm]

section
open Config (defaults)

variable {q : Config.ShiftCount} {t k l : Int}

/-- With SRGB_PRE = (3, 4), an argument k steps of 16 from 0 has shifted copies of size at least 2 * k and k. -/
theorem abs_lt_of_srgbTerm_defaults_nonpos (hk : 0 ≤ k) (hq : 2 ^ q.val ≤ 2 * k * k)
    (h : srgbTerm defaults.srgbPre q t ≤ 0) : |t| < 16 * k := by
  by_contra hfar
  have hlt : shrr t defaults.srgbPre.p1 * shrr t defaults.srgbPre.p2 < 2 ^ q.val := lt_pow_of_shrr_nonpos h
  have hge : 2 * k * k ≤ shrr t defaults.srgbPre.p1 * shrr t defaults.srgbPre.p2 :=
    le_shrr_mul_shrr hk (show 2 * k * 2 ^ 3 ≤ |t| by omega) (show k * 2 ^ 4 ≤ |t| by omega)
  omega

theorem srgbTerm_defaults_le (h : |t| ≤ 16 * k) (hl : 2 * k * k ≤ l * 2 ^ q.val) : srgbTerm defaults.srgbPre q t ≤ l := by
  have hle : shrr t defaults.srgbPre.p1 * shrr t defaults.srgbPre.p2 ≤ 2 * k * k :=
    shrr_mul_shrr_le (show |t| ≤ 2 * k * 2 ^ 3 by omega) (show |t| ≤ k * 2 ^ 4 by omega)
  exact shrr_le_of_le_mul (hle.trans hl)

/-- Wider bounds than R99 derives, and narrow enough for its argument. -/
theorem bounds_of_srgbForm_defaults_nonpos {y u v : Int} (h : srgbForm defaults y u v ≤ 0) :
    |y| < 48 ∧ |u| < 192 ∧ |v| < 256 := by
  have hy := srgbTerm_nonneg defaults.srgbPre defaults.srgbPost.q1 y
  have hu := srgbTerm_nonneg defaults.srgbPre defaults.srgbPost.q2 u
  have hv := srgbTerm_nonneg defaults.srgbPre defaults.srgbPost.q3 v
  unfold srgbForm at h
  refine ⟨?_, ?_, ?_⟩
  · exact abs_lt_of_srgbTerm_defaults_nonpos (k := 3) (q := defaults.srgbPost.q1) (by decide) (by decide) (by omega)
  · exact abs_lt_of_srgbTerm_defaults_nonpos (k := 12) (q := defaults.srgbPost.q2) (by decide) (by decide) (by omega)
  · exact abs_lt_of_srgbTerm_defaults_nonpos (k := 16) (q := defaults.srgbPost.q3) (by decide) (by decide) (by omega)

theorem srgbForm_defaults_lt {y u v : Int} (hy : |y| ≤ 11968000) (hu : |u| ≤ 27648000) (hv : |v| ≤ 34944000) :
    srgbForm defaults y u v < 2 ^ 37 := by
  have hy' : srgbTerm defaults.srgbPre defaults.srgbPost.q1 y ≤ 69938000000 :=
    srgbTerm_defaults_le (k := 748000) hy (by decide)
  have hu' : srgbTerm defaults.srgbPre defaults.srgbPost.q2 u ≤ 23328000000 :=
    srgbTerm_defaults_le (k := 1728000) hu (by decide)
  have hv' : srgbTerm defaults.srgbPre defaults.srgbPost.q3 v ≤ 18632250000 :=
    srgbTerm_defaults_le (k := 2184000) hv (by decide)
  unfold srgbForm
  omega

theorem srgbDiff_defaults (a b : Color) :
    srgbDiff defaults.wySrgb a b = sqDiff a.r b.r * 84 + sqDiff a.g b.g * 72 + sqDiff a.b b.b * 28 := rfl

theorem distSrgb_defaults_eq (a b : Color) :
    distSrgb defaults a b = srgbForm defaults (srgbDiff defaults.wySrgb a b)
      (sqDiff a.r b.r * 409 - srgbDiff defaults.wySrgb a b) (sqDiff a.b b.b * 409 - srgbDiff defaults.wySrgb a b) := rfl

theorem eq_of_distSrgb_defaults_nonpos {a b : Color} (h : distSrgb defaults a b ≤ 0) : a = b := by
  rw [distSrgb_defaults_eq] at h
  obtain ⟨hy, hu, hv⟩ := bounds_of_srgbForm_defaults_nonpos h
  rw [abs_lt] at hy hu hv
  have hr : sqDiff a.r b.r = 0 := by omega
  have hb : sqDiff a.b b.b = 0 := by omega
  have hg : sqDiff a.g b.g = 0 := by
    rw [srgbDiff_defaults] at hy
    omega
  exact color_ext (comp_eq_of_sqDiff_eq_zero hr) (comp_eq_of_sqDiff_eq_zero hg) (comp_eq_of_sqDiff_eq_zero hb)

theorem distSrgb_defaults_lt (a b : Color) : distSrgb defaults a b < 2 ^ 37 := by
  have hr := abs_le.mp (abs_sqDiff_le a.r b.r)
  have hg := abs_le.mp (abs_sqDiff_le a.g b.g)
  have hb := abs_le.mp (abs_sqDiff_le a.b b.b)
  rw [distSrgb_defaults_eq, srgbDiff_defaults]
  apply srgbForm_defaults_lt <;> rw [abs_le] <;> omega

end

/-! ### All four metrics (R91) and the pair costs (R97) -/

theorem dist_comm_of_ne_srgb (p : Config.Params) {m : Metric} (hm : m ≠ .srgb) (a b : Color) :
    dist p m a b = dist p m b a := by
  cases m with
  | rgb => exact distLuma_comm _ a b
  | srgb => exact absurd rfl hm
  | yuv => exact distLuma_comm _ a b
  | avg => exact distAvg_comm a b

theorem dist_nonneg (p : Config.Params) (m : Metric) (a b : Color) : 0 ≤ dist p m a b := by
  cases m with
  | rgb => exact distLuma_nonneg _ a b
  | srgb => exact distSrgb_nonneg p a b
  | yuv => exact distLuma_nonneg _ a b
  | avg => exact distAvg_nonneg a b

theorem dist_self (p : Config.Params) (m : Metric) (a : Color) : dist p m a a = 0 := by
  cases m with
  | rgb => exact distLuma_self _ a
  | srgb => exact distSrgb_self p a
  | yuv => exact distLuma_self _ a
  | avg => exact distAvg_self a

theorem eq_of_dist_defaults_nonpos {m : Metric} {a b : Color} (h : dist Config.defaults m a b ≤ 0) : a = b := by
  cases m with
  | rgb => exact eq_of_distLuma_nonpos (by decide) h
  | srgb => exact eq_of_distSrgb_defaults_nonpos h
  | yuv => exact eq_of_distLuma_nonpos (by decide) h
  | avg => exact eq_of_distAvg_nonpos h

/-- A sixteenth of the bound on a pair cost. -/
theorem dist_defaults_lt (m : Metric) (a b : Color) : dist Config.defaults m a b < 2 ^ 37 := by
  cases m with
  | rgb => exact distLuma_lt (by decide) a b
  | srgb => exact distSrgb_defaults_lt a b
  | yuv => exact distLuma_lt (by decide) a b
  | avg => exact (distAvg_le a b).trans_lt (by decide)

theorem sum_map_range_bounds {f : Nat → Int} {B : Int} (n : Nat) (h : ∀ k, 0 ≤ f k ∧ f k ≤ B) :
    0 ≤ ((List.range n).map f).sum ∧ ((List.range n).map f).sum ≤ n * B := by
  constructor
  · exact List.sum_nonneg (by simpa using fun k _ => (h k).1)
  · have hle := List.sum_le_card_nsmul ((List.range n).map f) B (by simpa using fun k _ => (h k).2)
    simpa using hle

end Sys2Proof.Machine

namespace Sys2Proof.Proofs

open Sys2Proof.Machine

/-- Settles O17: AVG is a sum of three squares, and LUMA takes squares of numbers whose signs turn with the order. -/
theorem avgAndLumaDistancesSymmetric : Obligations.AvgAndLumaDistancesSymmetric := by
  refine ⟨fun p a b => ⟨?_, lumaForm_eq_div _ _ _, lumaForm_eq_div _ _ _⟩, by decide, by decide, by decide,
    fun p m a b hm => ⟨dist_comm_of_ne_srgb p hm a b, dist_nonneg p m a b⟩, distAvg_le, by decide⟩
  change distAvg a b = _
  rw [distAvg_eq, distAlpha_eq_sq, distAlpha_eq_sq, distAlpha_eq_sq]

/-- Settles O18: the two shifted copies of a number agree in sign, so no term is negative; R95's example swapped shows
the asymmetry. -/
theorem srgbDistanceNonNegativeNotSymmetric : Obligations.SrgbDistanceNonNegativeNotSymmetric := by
  refine ⟨fun p a b => ?_, by decide, by decide, distSrgb_nonneg _, ⟨0#8, 0#8, 1#8⟩, ⟨0#8, 0#8, 0#8⟩, by decide⟩
  change distSrgb p a b = _
  simp only [distSrgb, comp, sq]

/-- Settles O19: a distance that is not positive puts narrow bounds on y, u and v, which make the colours equal. -/
theorem distancesSeparateColours : Obligations.DistancesSeparateColours :=
  ⟨dist_self, fun _ _ _ hne => lt_of_not_ge fun hle => hne (eq_of_dist_defaults_nonpos hle)⟩

/-- Settles O20: the cost is a sum of at most 16 least distances, each in [0, 2^37). -/
theorem pairCostsFitFortyOneBits : Obligations.PairCostsFitFortyOneBits := by
  intro m c old n i j hn hi hj
  rw [colorCost_fillMatrix _ _ _ hn hi hj]
  obtain ⟨hlo, hhi⟩ := sum_map_range_bounds (B := 2 ^ 37 - 1) n fun k =>
    ⟨le_min (dist_nonneg Config.defaults m (entry c i) (entry c k))
        (dist_nonneg Config.defaults m (entry c j) (entry c k)),
      (min_le_left _ _).trans (Int.le_sub_one_of_lt (dist_defaults_lt m (entry c i) (entry c k)))⟩
  exact ⟨hlo, by omega⟩

/-- Settles O16: SHRR is the greatest k with k * 2^n ≤ x + 2^(n-1). -/
theorem roundingShiftIsFloorOfHalfAdded : Obligations.RoundingShiftIsFloorOfHalfAdded := by
  refine ⟨fun x n => ⟨?_, ?_⟩, fun n => ⟨fun h => ?_, fun h => ⟨?_, ?_⟩, fun h => ?_⟩⟩
  · rw [mul_comm]
    exact le_shrr_iff.mp le_rfl
  · rw [mul_comm, ← not_le, ← le_shrr_iff, not_le]
    exact Int.lt_succ _
  all_goals rw [shrr, h]; decide

/-- Settles O21, from the square of a difference of bytes. -/
theorem alphaDistanceIsSquaredDifference : Obligations.AlphaDistanceIsSquaredDifference :=
  ⟨fun a b => ⟨distAlpha_eq_sq a b, distAlpha_comm a b, distAlpha_eq_zero_iff, distAlpha_le a b⟩, by decide⟩

end Sys2Proof.Proofs
end

section
/-! SUPPORT. The statements of 42_color_reducer.md: the cost of a pair (R111), the order of the search and what it
selects (R112), and the endpoints REDUCE_COLOR takes from it (R113, R115, R116). -/

namespace Sys2Proof.Machine

/-! ### The search (R112) -/

theorem pairwise_pairs (n : Nat) : (pairs n).Pairwise fun a b => a.1 < b.1 ∨ a.1 = b.1 ∧ a.2 < b.2 := by
  refine List.pairwise_flatMap.mpr ⟨fun i _ => ?row, ?rows⟩
  case row =>
    exact List.pairwise_map.mpr (List.pairwise_lt_range.imp fun h => .inr ⟨rfl, Nat.add_lt_add_left h _⟩)
  case rows =>
    refine List.pairwise_lt_range.imp fun h a ha b hb => .inl ?_
    obtain ⟨_, _, rfl⟩ := List.mem_map.mp ha
    obtain ⟨_, _, rfl⟩ := List.mem_map.mp hb
    exact h

/-- The fold's result is the start, was visited in the first part, or costs strictly less than all of that part: it
moves in the second part only to a strictly lower cost. -/
theorem foldl_visit_append (cost : Nat → Nat → Int) (xs ys : List (Nat × Nat)) (b : BestPair)
    (h : b.cost = cost b.i b.j) :
    let r := (xs ++ ys).foldl (visit cost) b
    r = b ∨ (r.i, r.j) ∈ xs ∨ ∀ q ∈ xs, r.cost < cost q.1 q.2 := by
  rw [List.foldl_append]
  obtain ⟨hcost, hseen, -, hle⟩ := foldl_visit cost xs b h
  obtain ⟨-, -, -, hlater⟩ := foldl_visit cost ys _ hcost
  by_cases hlower : ∃ q ∈ ys, cost q.1 q.2 < (xs.foldl (visit cost) b).cost
  · obtain ⟨q, hq, hlt⟩ := hlower
    exact .inr (.inr fun q' hq' => ((hlater q hq).trans_lt hlt).trans_le (hle q' hq'))
  · rw [foldl_visit_stays cost ys _ fun q hq hlt => hlower ⟨q, hq, hlt⟩]
    exact hseen.imp_right .inl

section
variable {n i j : Nat} (cost : Nat → Nat → Int)

theorem search_cost : (search n cost).cost = cost (search n cost).i (search n cost).j :=
  (foldl_visit cost (pairs n) ⟨cost 0 1, 0, 1⟩ rfl).1

theorem search_ordered (h2 : 2 ≤ n) : (search n cost).i < (search n cost).j ∧ (search n cost).j < n := by
  obtain ⟨-, hstart | hmem, -, -⟩ := foldl_visit cost (pairs n) ⟨cost 0 1, 0, 1⟩ rfl
  · rw [search, hstart]
    exact ⟨Nat.zero_lt_one, h2⟩
  · exact mem_pairs.mp hmem

theorem search_cost_le (hij : i < j) (hj : j < n) : (search n cost).cost ≤ cost i j := by
  obtain ⟨-, -, -, hle⟩ := foldl_visit cost (pairs n) ⟨cost 0 1, 0, 1⟩ rfl
  exact hle (i, j) (mem_pairs.mpr ⟨hij, hj⟩)

/-- A pair visited before the selected one costs strictly more, or the search would have kept it. -/
theorem search_cost_lt_of_before (hij : i < j) (hj : j < n)
    (hbefore : i < (search n cost).i ∨ i = (search n cost).i ∧ j < (search n cost).j) :
    (search n cost).cost < cost i j := by
  have hmem : (i, j) ∈ pairs n := mem_pairs.mpr ⟨hij, hj⟩
  obtain ⟨xs, ys, hsplit⟩ := List.append_of_mem hmem
  have hord := pairwise_pairs n
  rw [hsplit, List.pairwise_append] at hord
  obtain ⟨-, -, hord⟩ := hord
  have hcases := foldl_visit_append cost (xs ++ [(i, j)]) ys ⟨cost 0 1, 0, 1⟩ rfl
  rw [← List.append_cons, ← hsplit, ← search] at hcases
  rcases hcases with hstart | hseen | hlower
  · rw [hstart] at hbefore
    simp only at hbefore
    omega
  · rcases List.mem_append.mp hseen with hx | hx
    · have hx := hord _ hx (i, j) List.mem_cons_self
      simp only at hx
      omega
    · simp only [List.mem_singleton, Prod.mk.injEq] at hx
      omega
  · exact hlower (i, j) (by simp)

/-- R112's selection: a pair of least cost, and strictly below every pair before it. -/
theorem search_first_least (hij : i < j) (hj : j < n) :
    (search n cost).cost ≤ cost i j ∧
    (i < (search n cost).i ∨ i = (search n cost).i ∧ j < (search n cost).j → (search n cost).cost < cost i j) :=
  ⟨search_cost_le cost hij hj, search_cost_lt_of_before cost hij hj⟩

end

/-! ### The cost of a pair (R111) -/

theorem colorCost_eq_sum (d : Matrix16) (n i j : Nat) :
    colorCost d n i j = ∑ k ∈ Finset.range n, min (matrixAt d i k) (matrixAt d j k) := rfl

theorem colorCost_comm (d : Matrix16) (n i j : Nat) : colorCost d n i j = colorCost d n j i := by
  simp only [colorCost, min_comm]

/-- S(i, j) by the samples themselves, DIST in R98's argument order: what `colorCost` is over the filled D. -/
def sampleCost (p : Config.Params) (m : Metric) (c : Vector Color 16) (n i j : Nat) : Int :=
  ∑ k ∈ Finset.range n, min (dist p m (entry c i) (entry c k)) (dist p m (entry c j) (entry c k))

theorem search_colorCost_fillMatrix (p : Config.Params) (m : Metric) (c : Vector Color 16) (old : Matrix16) {n : Nat}
    (h2 : 2 ≤ n) (hn : n ≤ 16) :
    search n (colorCost (fillMatrix n (fun i k => dist p m (entry c i) (entry c k)) old) n) =
      search n (sampleCost p m c n) :=
  search_congr h2 fun _ _ hi hj => colorCost_fillMatrix _ _ _ hn hi hj

/-- With the default parameters a pair is free iff each sample has the colour of one of its two. -/
theorem sampleCost_defaults_nonpos_iff {m : Metric} {c : Vector Color 16} {n i j : Nat} :
    sampleCost Config.defaults m c n i j ≤ 0 ↔ ∀ k, k < n → entry c i = entry c k ∨ entry c j = entry c k := by
  have hterm : ∀ k ∈ Finset.range n,
      0 ≤ min (dist Config.defaults m (entry c i) (entry c k)) (dist Config.defaults m (entry c j) (entry c k)) :=
    fun k _ => le_min (dist_nonneg _ m _ _) (dist_nonneg _ m _ _)
  constructor
  · intro hle k hk
    have hmin := (Finset.sum_eq_zero_iff_of_nonneg hterm).mp (le_antisymm hle (Finset.sum_nonneg hterm)) k
      (Finset.mem_range.mpr hk)
    exact (min_le_iff.mp hmin.le).imp eq_of_dist_defaults_nonpos eq_of_dist_defaults_nonpos
  · intro hcover
    refine Finset.sum_nonpos fun k hk => min_le_iff.mpr ?_
    refine (hcover k (Finset.mem_range.mp hk)).imp (fun h => ?_) fun h => ?_ <;> rw [h, dist_self]

/-! ### The endpoints of REDUCE_COLOR (R113, R115, R116) -/

section
variable (p : Config.Params) (m : Metric) {n : Nat} (wk : Work)

theorem reduceColor_one :
    reduceColor p m 1 wk = { wk with color0 := entry wk.c 0, color1 := entry wk.c 0 } := rfl

theorem reduceColor_color0 (h2 : 2 ≤ n) (hn : n ≤ 16) :
    (reduceColor p m n wk).color0 = entry wk.c (search n (sampleCost p m wk.c n)).i := by
  rw [← search_colorCost_fillMatrix p m wk.c wk.d h2 hn, reduceColor, if_neg (by omega)]

theorem reduceColor_color1 (h2 : 2 ≤ n) (hn : n ≤ 16) :
    (reduceColor p m n wk).color1 = entry wk.c (search n (sampleCost p m wk.c n)).j := by
  rw [← search_colorCost_fillMatrix p m wk.c wk.d h2 hn, reduceColor, if_neg (by omega)]

/-- Both endpoints are colours of samples. -/
theorem reduceColor_endpoints_mem (h1 : 1 ≤ n) (hn : n ≤ 16) :
    (∃ k, k < n ∧ (reduceColor p m n wk).color0 = entry wk.c k) ∧
    ∃ k, k < n ∧ (reduceColor p m n wk).color1 = entry wk.c k := by
  rcases Nat.eq_or_lt_of_le h1 with rfl | h2
  · exact ⟨⟨0, h1, rfl⟩, 0, h1, rfl⟩
  · obtain ⟨hi, hj⟩ := search_bounds (sampleCost p m wk.c n) h2
    exact ⟨⟨_, hi, reduceColor_color0 p m wk h2 hn⟩, _, hj, reduceColor_color1 p m wk h2 hn⟩

/-- When two samples i < j hold every colour of the block, so do the endpoints: their pair is free, so the selected
one is. -/
theorem reduceColor_defaults_covers {i j : Nat} (hn : n ≤ 16) (hij : i < j) (hj : j < n)
    (hcover : ∀ k, k < n → entry wk.c i = entry wk.c k ∨ entry wk.c j = entry wk.c k) {k : Nat} (hk : k < n) :
    (reduceColor Config.defaults m n wk).color0 = entry wk.c k ∨
    (reduceColor Config.defaults m n wk).color1 = entry wk.c k := by
  have h2 : 2 ≤ n := by omega
  rw [reduceColor_color0 _ m wk h2 hn, reduceColor_color1 _ m wk h2 hn]
  have hfree := (search_cost_le _ hij hj).trans (sampleCost_defaults_nonpos_iff (m := m).mpr hcover)
  rw [search_cost] at hfree
  exact sampleCost_defaults_nonpos_iff.mp hfree k hk

end

/-- Samples of both of two colours, at two places, in the order of the search. -/
theorem exists_covering_pair {c : Vector Color 16} {n : Nat} {a b : Color} (hne : a ≠ b)
    (hcolors : ∀ k, k < n → entry c k = a ∨ entry c k = b) (ha : ∃ k, k < n ∧ entry c k = a)
    (hb : ∃ k, k < n ∧ entry c k = b) :
    ∃ i j, i < j ∧ j < n ∧ ∀ k, k < n → entry c i = entry c k ∨ entry c j = entry c k := by
  obtain ⟨x, hx, rfl⟩ := ha
  obtain ⟨y, hy, rfl⟩ := hb
  have hcover : ∀ k, k < n → entry c x = entry c k ∨ entry c y = entry c k :=
    fun k hk => (hcolors k hk).imp Eq.symm Eq.symm
  rcases lt_trichotomy x y with hxy | rfl | hyx
  · exact ⟨x, y, hxy, hy, hcover⟩
  · exact absurd rfl hne
  · exact ⟨y, x, hyx, hx, fun k hk => (hcover k hk).symm⟩

end Sys2Proof.Machine

namespace Sys2Proof.Proofs

open Sys2Proof.Machine

/-- Settles O25: a pair visited before the selected one was beaten strictly after its visit. -/
theorem searchSelectsFirstLeastCostPair : Obligations.SearchSelectsFirstLeastCostPair := by
  intro n h2
  refine ⟨pairwise_pairs n, fun _ => mem_pairs, fun cost => ?_⟩
  obtain ⟨hij, hj⟩ := search_ordered cost h2
  exact ⟨hij, hj, search_cost cost, fun _ _ => search_first_least cost⟩

/-- Settles O26: over the filled D the search runs on the sums of the distances themselves. -/
theorem colorReducerPicksFirstLeastPair : Obligations.ColorReducerPicksFirstLeastPair := by
  refine fun p m wk => ⟨by simp only [reduceColor_one, and_self], fun n h2 hn => ?_⟩
  obtain ⟨hij, hj⟩ := search_ordered (sampleCost p m wk.c n) h2
  refine ⟨_, _, hij, hj, reduceColor_color0 p m wk h2 hn, reduceColor_color1 p m wk h2 hn, fun i' j' h h' => ?_⟩
  have hfirst := search_first_least (sampleCost p m wk.c n) h h'
  rw [search_cost] at hfirst
  exact hfirst

/-- Settles O27: two samples of the two colours are a free pair, so the selected pair is free and holds both colours;
in a uniform block there is one colour to select. -/
theorem twoColourBlockKeepsItsColours : Obligations.TwoColourBlockKeepsItsColours := by
  constructor
  · intro m n wk a b hn hne hcolors ha hb
    obtain ⟨i, j, hij, hj, hcover⟩ := exists_covering_pair hne hcolors ha hb
    obtain ⟨x, hx, rfl⟩ := ha
    obtain ⟨y, hy, rfl⟩ := hb
    have hends := @reduceColor_defaults_covers m n wk i j hn hij hj hcover
    rcases hends hx, hends hy with ⟨hx0 | hx1, hy0 | hy1⟩
    · exact absurd (hx0.symm.trans hy0) hne
    · exact .inl ⟨hx0, hy1⟩
    · exact .inr ⟨hy0, hx1⟩
    · exact absurd (hx1.symm.trans hy1) hne
  · intro p m n wk a h1 hn huniform
    obtain ⟨⟨k0, hk0, h0⟩, k1, hk1, h1'⟩ := reduceColor_endpoints_mem p m wk h1 hn
    exact ⟨h0.trans (huniform k0 hk0), h1'.trans (huniform k1 hk1)⟩

/-- Settles O24, by the symmetry of the minimum. -/
theorem colorPairCostIsSymmetricSumOfMinima : Obligations.ColorPairCostIsSymmetricSumOfMinima :=
  fun d n i j => ⟨colorCost_eq_sum d n i j, colorCost_comm d n i j⟩

end Sys2Proof.Proofs
end

section
/-! SUPPORT. The statements of 43_alpha_reducer.md: the cost of a pair over the samples (R121), the ascending order
of the endpoints REDUCE_ALPHA takes from the search (R122 to R125), and what it leaves to REDUCE_COLOR (R126). -/

namespace Sys2Proof.Machine

/-! ### The swap to ascending order (R124) -/

theorem setAlphas_self (a : Byte) (wk : Work) : setAlphas a a wk = { wk with alpha0 := a, alpha1 := a } :=
  if_neg (lt_irrefl _)

theorem setAlphas_ascending (a b : Byte) (wk : Work) :
    (setAlphas a b wk).alpha0.toNat ≤ (setAlphas a b wk).alpha1.toNat := by
  rw [setAlphas_alpha0, setAlphas_alpha1]
  split
  next hlt => exact hlt.le
  next hge => exact Nat.le_of_not_lt hge

theorem setAlphas_endpoints (a b : Byte) (wk : Work) :
    (setAlphas a b wk).alpha0 = a ∧ (setAlphas a b wk).alpha1 = b ∨
    (setAlphas a b wk).alpha0 = b ∧ (setAlphas a b wk).alpha1 = a := by
  rw [setAlphas_alpha0, setAlphas_alpha1]
  split
  · exact .inr ⟨rfl, rfl⟩
  · exact .inl ⟨rfl, rfl⟩

/-! ### The endpoints of REDUCE_ALPHA (R121 to R123, R125) -/

/-- SA(i, j) by the samples themselves: what `alphaCost` is over the filled AD. -/
def sampleAlphaCost (a : Vector Byte 16) (n i j : Nat) : Int :=
  ∑ k ∈ Finset.range n,
    min (min (distAlpha (entry a i) (entry a k)) (distAlpha (entry a j) (entry a k)))
      (min (distAlpha 0#8 (entry a k)) (distAlpha 255#8 (entry a k)))

theorem search_alphaCost_fillMatrix (a : Vector Byte 16) (old : Matrix16) {n : Nat} (h2 : 2 ≤ n) (hn : n ≤ 16) :
    search n (alphaCost (fillMatrix n (fun i k => distAlpha (entry a i) (entry a k)) old) a n) =
      search n (sampleAlphaCost a n) :=
  search_congr h2 fun _ _ hi hj => alphaCost_fillMatrix _ _ _ _ hn hi hj

theorem reduceAlpha_one (wk : Work) :
    reduceAlpha 1 wk = { wk with alpha0 := entry wk.a 0, alpha1 := entry wk.a 0 } :=
  setAlphas_self _ _

/-- With two samples or more the endpoints are the alphas of the selected pair, sorted. -/
theorem reduceAlpha_eq_setAlphas (wk : Work) {n : Nat} (h2 : 2 ≤ n) (hn : n ≤ 16) :
    reduceAlpha n wk =
      setAlphas (entry wk.a (search n (sampleAlphaCost wk.a n)).i) (entry wk.a (search n (sampleAlphaCost wk.a n)).j)
        { wk with ad := fillMatrix n (fun i k => distAlpha (entry wk.a i) (entry wk.a k)) wk.ad } := by
  rw [← search_alphaCost_fillMatrix wk.a wk.ad h2 hn, reduceAlpha, if_neg (by omega)]

/-! ### What the reducers write and read (R126) -/

theorem setAlphas_eq_update (a b : Byte) (wk : Work) :
    setAlphas a b wk =
      { wk with
        alpha0 := if b.toNat < a.toNat then b else a
        alpha1 := if b.toNat < a.toNat then a else b } := by
  unfold setAlphas; split <;> rfl

/-- REDUCE_ALPHA writes AD and the alpha endpoints only, and what it writes depends on A and AD only: it writes the
same in any state that has the A and AD of wk. -/
theorem reduceAlpha_eq_update (n : Nat) {wk wk' : Work} (ha : wk'.a = wk.a) (had : wk'.ad = wk.ad) :
    reduceAlpha n wk' =
      { wk' with
        ad := (reduceAlpha n wk).ad
        alpha0 := (reduceAlpha n wk).alpha0
        alpha1 := (reduceAlpha n wk).alpha1 } := by
  unfold reduceAlpha
  split
  · simp only [setAlphas_self, ha, had]
  · simp only [setAlphas_eq_update, ha, had]

@[simp] theorem reduceColor_ad (p : Config.Params) (m : Metric) (n : Nat) (wk : Work) :
    (reduceColor p m n wk).ad = wk.ad := by
  unfold reduceColor; split <;> rfl

/-- REDUCE_COLOR neither reads nor writes AD and the alpha endpoints. -/
theorem reduceColor_update_alpha (p : Config.Params) (m : Metric) (n : Nat) (wk : Work) (ad : Matrix16)
    (a0 a1 : Byte) :
    reduceColor p m n { wk with ad := ad, alpha0 := a0, alpha1 := a1 } =
      { reduceColor p m n wk with ad := ad, alpha0 := a0, alpha1 := a1 } := by
  unfold reduceColor; split <;> rfl

end Sys2Proof.Machine

namespace Sys2Proof.Proofs

open Sys2Proof.Machine

/-- Settles O28: over the filled AD the search runs on the sums of the distances themselves, and the swap sorts the
selected pair's alphas. -/
theorem alphaReducerPicksFirstLeastPairAscending : Obligations.AlphaReducerPicksFirstLeastPairAscending := by
  refine fun wk => ⟨by simp only [reduceAlpha_one, and_self], fun n h2 hn => ?_⟩
  rw [reduceAlpha_eq_setAlphas wk h2 hn]
  obtain ⟨hij, hj⟩ := search_ordered (sampleAlphaCost wk.a n) h2
  refine ⟨setAlphas_ascending _ _ _, _, _, hij, hj, setAlphas_endpoints _ _ _, fun i' j' h h' => ?_⟩
  have hfirst := search_first_least (sampleAlphaCost wk.a n) h h'
  rw [search_cost] at hfirst
  exact hfirst

/-- Settles O29: what REDUCE_ALPHA writes depends on A and AD, which REDUCE_COLOR leaves as they are, and REDUCE_COLOR
passes over what REDUCE_ALPHA writes. -/
theorem reducersCommute : Obligations.ReducersCommute := by
  intro p m n wk
  have halpha := reduceAlpha_eq_update n (wk := wk) (wk' := wk) rfl rfl
  have hafter := reduceAlpha_eq_update n (reduceColor_a p m n wk) (reduceColor_ad p m n wk)
  refine ⟨?_, _, _, _, halpha⟩
  rw [hafter, ← reduceColor_update_alpha, ← halpha]

end Sys2Proof.Proofs
end

section
/-! SUPPORT. The statements of 44_block_packer.md: canonical order and PACK565 (R130 to R133), the bit-packer (R134,
R138), the codes of a pixel (R140 to R146), and the finished block read back: its index fields (R142, R144, R147, R148),
its endpoints (R135 to R137, R149) and R150's properties. -/

namespace Sys2Proof.Machine

/-! ### Canonical order and RGB565 (R130, R131, R133) -/

theorem lexless_iff (a b : Color) :
    lexless a b = true ↔
      a.r.toNat < b.r.toNat ∨ a.r = b.r ∧ (a.g.toNat < b.g.toNat ∨ a.g = b.g ∧ a.b.toNat < b.b.toNat) := by
  simp only [lexless, Bool.or_eq_true, Bool.and_eq_true, decide_eq_true_eq, beq_iff_eq]

theorem toNat_append_eq_add {m n : Nat} (x : BitVec m) (y : BitVec n) : (x ++ y).toNat = x.toNat * 2 ^ n + y.toNat := by
  rw [BitVec.toNat_append, ← Nat.shiftLeft_add_eq_or_of_lt y.isLt, Nat.shiftLeft_eq]

theorem lexless_iff_concat_lt (a b : Color) :
    lexless a b = true ↔ (a.r ++ a.g ++ a.b : BitVec 24).toNat < (b.r ++ b.g ++ b.b : BitVec 24).toNat := by
  rw [lexless_iff]
  simp only [toNat_append_eq_add, ← BitVec.toNat_inj]
  omega

theorem lexless_asymm {a b : Color} (h : lexless a b = true) : lexless b a = false := by
  rw [lexless_iff_concat_lt] at h
  rw [← Bool.not_eq_true, lexless_iff_concat_lt]
  exact h.asymm

theorem canon_of_lexless {wk : Work} (h : lexless wk.color0 wk.color1 = true) :
    canon wk = { wk with color0 := wk.color1, color1 := wk.color0 } := if_pos h

theorem canon_of_not_lexless {wk : Work} (h : lexless wk.color0 wk.color1 = false) : canon wk = wk := by
  simp [canon, h]

theorem lexless_canon (wk : Work) : lexless (canon wk).color0 (canon wk).color1 = false := by
  cases h : lexless wk.color0 wk.color1 with
  | true => rw [canon_of_lexless h]; exact lexless_asymm h
  | false => rwa [canon_of_not_lexless h]

theorem toNat_pack565 (c : Color) :
    (pack565 c).toNat = c.r.toNat / 8 * 2048 + c.g.toNat / 4 * 32 + c.b.toNat / 8 := by
  simp only [pack565, toNat_append_eq_add, BitVec.extractLsb'_toNat, Nat.shiftRight_eq_div_pow]
  omega

/-! ### The codes of a pixel (R140, R141, R143, R145) -/

/-- Nothing is strictly closer to an endpoint than to itself. -/
@[simp] theorem cidx_self (p : Config.Params) (m : Metric) (c pc : Color) : cidx p m c c pc = 0#2 :=
  if_neg (lt_irrefl _)

/-- The colour code of every mode: CIDX, with punch-through on top where DXT1 allows it. -/
theorem colorCode_eq (p : Config.Params) (o : Operands) (wk : Work) (px : Word) :
    colorCode p o wk px =
      if o.mode = .dxt1 ∧ o.pte = true ∧ pixelAlpha px = 0#8 then 3#2
      else cidx p o.metric wk.color0 wk.color1 (pixelColor px) := by
  by_cases hm : o.mode = .dxt1
  · simp only [colorCode, cidx1, hm, true_and]
  · rw [colorCode_eq_cidx p wk px (.inl hm), if_neg fun h => hm h.1]

/-- With equal endpoints a pixel that is not punched through has colour code 0. -/
theorem colorCode_of_equal_endpoints (p : Config.Params) {o : Operands} {wk : Work} {px : Word}
    (hcolor : wk.color0 = wk.color1) (hpx : pixelAlpha px ≠ 0#8 ∨ o.pte = false ∨ o.mode ≠ .dxt1) :
    colorCode p o wk px = 0#2 := by
  have hno : ¬ (o.mode = .dxt1 ∧ o.pte = true ∧ pixelAlpha px = 0#8) := by
    rintro ⟨hm, hpte, halpha⟩
    simp [hm, hpte, halpha] at hpx
  rw [colorCode_eq, if_neg hno, hcolor, cidx_self]

theorem pixelAlpha_eq_zero_iff (px : Word) : pixelAlpha px = 0#8 ↔ px.toNat / 2 ^ 24 = 0 := by
  have hlt := px.isLt
  simp only [pixelAlpha, ← BitVec.toNat_inj, BitVec.extractLsb'_toNat, BitVec.toNat_ofNat,
    Nat.shiftRight_eq_div_pow]
  omega

theorem toNat_q4 (pa : Byte) : (q4 pa).toNat = pa.toNat / 16 := by
  have hlt := pa.isLt
  simp only [q4, BitVec.extractLsb'_toNat, Nat.shiftRight_eq_div_pow]
  omega

theorem getLsbD_q4_pixelAlpha (px : Word) {e : Nat} (he : e < 4) :
    (q4 (pixelAlpha px)).getLsbD e = px.getLsbD (28 + e) := by
  have he8 : 4 + e < 8 := by omega
  rw [q4, pixelAlpha, BitVec.getLsbD_extractLsb', BitVec.getLsbD_extractLsb', decide_eq_true he, decide_eq_true he8,
    Bool.true_and, Bool.true_and, ← Nat.add_assoc]

/-- Each of the four tests of ACODE on the least distance, read as comparisons of the four distances. -/
theorem acode_cases (a0 a1 pa : Byte) :
    let d0 := distAlpha a0 pa
    let d1 := distAlpha a1 pa
    let dz := distAlpha 0#8 pa
    let df := distAlpha 255#8 pa
    (d1 ≤ df ∧ d1 ≤ d0 ∧ d1 ≤ dz) ∧ acode a0 a1 pa = 1#3 ∨
    (df < d1 ∧ df ≤ d0 ∧ df ≤ dz) ∧ acode a0 a1 pa = 7#3 ∨
    (d0 < d1 ∧ d0 < df ∧ d0 ≤ dz) ∧ acode a0 a1 pa = 0#3 ∨
    (dz < d1 ∧ dz < df ∧ dz < d0) ∧ acode a0 a1 pa = 6#3 := by
  simp only [acode]
  split
  next h1 => exact .inl ⟨by omega, rfl⟩
  next h1 =>
    split
    next hf => exact .inr (.inl ⟨by omega, rfl⟩)
    next hf =>
      split
      next h0 => exact .inr (.inr (.inl ⟨by omega, rfl⟩))
      next h0 => exact .inr (.inr (.inr ⟨by omega, rfl⟩))

/-! ### The bit-packer (R134, R138) -/

section
variable (ob : Vector Byte 16) {b k : Nat} (v : BitVec 16)

theorem entry_write16le_low (hb : b < 16) : entry (write16le ob b v) b = v.extractLsb' 0 8 := by
  rw [entry_write16le, if_neg (by omega), if_pos ⟨rfl, hb⟩]

theorem entry_write16le_high (hb : b + 1 < 16) : entry (write16le ob b v) (b + 1) = v.extractLsb' 8 8 := by
  rw [entry_write16le, if_pos ⟨rfl, hb⟩]

theorem entry_write16le_of_ne (hlow : k ≠ b) (hhigh : k ≠ b + 1) : entry (write16le ob b v) k = entry ob k := by
  rw [entry_write16le, if_neg fun h => hhigh h.1, if_neg fun h => hlow h.1]

end

/-- Every bit of every byte after a code is written: the code's bit e is ORed into stream bit `L * pos + e`. -/
theorem getLsbD_entry_writeCode {L : Nat} (base pos : Nat) (c : BitVec L) (ob : Vector Byte 16) (k : Nat) {e : Nat}
    (hb : base + (L * pos + (L - 1)) / 8 < 16) (he : e < 8) :
    (entry (writeCode base pos c ob) k).getLsbD e =
      ((entry ob k).getLsbD e ||
        decide (8 * base + L * pos ≤ 8 * k + e) && c.getLsbD (8 * k + e - (8 * base + L * pos))) := by
  rw [writeCode, getLsbD_entry_foldl_setBit c base (L * pos) k e he L le_rfl hb]
  by_cases hin : 8 * k + e < 8 * base + L * pos + L
  · simp only [hin, and_true]
  · have hc : c.getLsbD (8 * k + e - (8 * base + L * pos)) = false := BitVec.getLsbD_of_ge _ _ (by omega)
    simp only [hc, Bool.and_false]

/-- A code leaves the bytes past its last bit. -/
theorem entry_writeCode_of_gt {L : Nat} (base pos : Nat) (c : BitVec L) (ob : Vector Byte 16) {k : Nat}
    (hk : base + (L * pos + (L - 1)) / 8 < k) : entry (writeCode base pos c ob) k = entry ob k := by
  unfold writeCode
  refine List.foldlRecOn (motive := fun ob' => entry ob' k = entry ob k) _ _ rfl fun ob' hob e he => ?_
  have he : e < L := List.mem_range.mp he
  split
  · exact (entry_setBit_ne _ _ _ _ (by omega)).trans hob
  · exact hob

/-- A code in a field of codes of its length: its bits are ORed in at its own position and at no other. -/
theorem streamBit_writeCode {L : Nat} (base pos q : Nat) {e : Nat} (c : BitVec L) (ob : Vector Byte 16)
    (hb : base + (L * pos + (L - 1)) / 8 < 16) (he : e < L) :
    streamBit base (L * q + e) (writeCode base pos c ob) =
      (streamBit base (L * q + e) ob || decide (q = pos) && c.getLsbD e) := by
  have hbit : 8 * (base + (L * q + e) / 8) + (L * q + e) % 8 = 8 * base + (L * q + e) := by omega
  rw [streamBit, getLsbD_entry_writeCode base pos c ob _ hb (Nat.mod_lt _ (by decide)), hbit, ← streamBit]
  congr 1
  rcases lt_trichotomy q pos with hlt | rfl | hgt
  · have hmul : L * (q + 1) ≤ L * pos := Nat.mul_le_mul_left L hlt
    rw [Nat.mul_succ] at hmul
    rw [decide_eq_false (by omega), decide_eq_false hlt.ne, Bool.false_and, Bool.false_and]
  · have hoff : 8 * base + (L * q + e) - (8 * base + L * q) = e := by omega
    rw [decide_eq_true (by omega), decide_eq_true rfl, hoff]
  · have hmul : L * (pos + 1) ≤ L * q := Nat.mul_le_mul_left L hgt
    rw [Nat.mul_succ] at hmul
    rw [BitVec.getLsbD_of_ge c _ (by omega), decide_eq_false hgt.ne', Bool.and_false, Bool.false_and]

/-- Writes that each OR a bit of their own position into the stream OR the bit of q once over all of them, if q is
among them. -/
theorem streamBit_foldl {base t q : Nat} {bit : Nat → Bool} {write : Vector Byte 16 → Nat → Vector Byte 16}
    (ps : List Nat) (ob : Vector Byte 16)
    (hwrite : ∀ pos ∈ ps, ∀ ob,
      streamBit base t (write ob pos) = (streamBit base t ob || decide (q = pos) && bit pos)) :
    streamBit base t (ps.foldl write ob) = (streamBit base t ob || decide (q ∈ ps) && bit q) := by
  induction ps generalizing ob with
  | nil => simp
  | cons pos ps ih =>
    rw [List.foldl_cons, ih _ fun pos' hpos' => hwrite pos' (List.mem_cons_of_mem _ hpos'),
      hwrite pos List.mem_cons_self]
    by_cases hq : q = pos
    · subst hq
      cases bit q <;> simp
    · simp [hq]

theorem streamBit_of_entry_eq_zero {base t : Nat} {ob : Vector Byte 16} (h : entry ob (base + t / 8) = 0#8) :
    streamBit base t ob = false := by
  rw [streamBit, h, BitVec.getLsbD_zero]

theorem streamBit_congr {base t : Nat} {ob ob' : Vector Byte 16}
    (h : entry ob (base + t / 8) = entry ob' (base + t / 8)) : streamBit base t ob = streamBit base t ob' := by
  rw [streamBit, h, streamBit]

/-! ### Where the fields of a mode stand (R135 to R137, R142, R149) -/

theorem colorBase_eq (m : Mode) : colorBase m = if m = .dxt1 then 0 else 8 := by cases m <;> rfl

theorem indexBase_eq (m : Mode) : indexBase m = if m = .dxt1 then 4 else 12 := by cases m <;> rfl

theorem modeSize_eq (m : Mode) : modeSize m = indexBase m + 4 := by cases m <;> rfl

theorem mem_usedPositions_iff {w h x y : Nat} (hw4 : w ≤ 4) (hx : x < 4) :
    x + 4 * y ∈ usedPositions w h ↔ x < w ∧ y < h := by
  rw [mem_usedPositions]
  constructor
  · rintro ⟨x', y', hx', hy', heq⟩
    omega
  · rintro ⟨hxw, hyh⟩
    exact ⟨x, y, hxw, hyh, rfl⟩

theorem lt_of_mem_usedPositions {w h pos : Nat} (hw4 : w ≤ 4) (hh4 : h ≤ 4) (hpos : pos ∈ usedPositions w h) :
    pos < 16 := by
  obtain ⟨x, y, hx, hy, rfl⟩ := mem_usedPositions.mp hpos
  omega

/-! ### What the stores of PACK leave of each other's bytes (R132, R149) -/

section
variable {o : Operands} (wk : Work) (ob : Vector Byte 16) {k : Nat}

/-- The alpha endpoints stand before the colour half. -/
theorem entry_writeEndpoints_of_ge {m : Mode} (hk : colorBase m ≤ k) :
    entry (writeEndpoints m wk ob) k =
      entry (write16le (write16le ob (colorBase m) (pack565 wk.color0)) (colorBase m + 2) (pack565 wk.color1)) k := by
  cases m with
  | dxt1 => rfl
  | dxt3 => rfl
  | dxt5 =>
    have hk8 : 8 ≤ k := hk
    rw [writeEndpoints, entry_storeByte, if_neg (by omega), entry_storeByte, if_neg (by omega)]

/-- The endpoint stores leave the colour index field. -/
theorem entry_writeEndpoints_index {m : Mode} (hk : indexBase m ≤ k) :
    entry (writeEndpoints m wk ob) k = entry ob k := by
  rw [indexBase] at hk
  rw [entry_writeEndpoints_of_ge wk ob (by omega), entry_write16le_of_ne _ _ (by omega) (by omega),
    entry_write16le_of_ne _ _ (by omega) (by omega)]

/-- The endpoint stores of DXT3 leave the alpha half. -/
theorem entry_writeEndpoints_dxt3 (hk : k < 8) : entry (writeEndpoints .dxt3 wk ob) k = entry ob k := by
  simp only [writeEndpoints, colorBase]
  rw [entry_write16le_of_ne _ _ (by omega) (by omega), entry_write16le_of_ne _ _ (by omega) (by omega)]

/-- The alpha codes of a position leave the colour half. -/
theorem entry_writeAlpha_of_ge {pos : Nat} (px : Word) (hpos : pos < 16) (hk : colorBase o.mode ≤ k) :
    entry (writeAlpha o wk pos px ob) k = entry ob k := by
  unfold writeAlpha
  split
  next => rfl
  next hm =>
    rw [hm, colorBase] at hk
    exact entry_writeCode_of_gt _ _ _ _ (by omega)
  next hm =>
    rw [hm, colorBase] at hk
    exact entry_writeCode_of_gt _ _ _ _ (by omega)

variable (p : Config.Params) (pix : Vector Word 16) (pos : Nat)

/-- The colour code of a position leaves the bytes before the colour index field. -/
theorem entry_writePixelCodes_of_lt (hk : k < indexBase o.mode) :
    entry (writePixelCodes p o pix wk ob pos) k = entry (writeAlpha o wk pos (entry pix pos) ob) k :=
  entry_writeAlpha_congr _ _ ⟨rfl, rfl, fun _ => rfl, fun _ => rfl⟩ (entry_writeCode_of_lt _ _ _ _ hk)

/-- The codes of a position leave the colour endpoints. -/
theorem entry_writePixelCodes_color (hpos : pos < 16) (hk : colorBase o.mode ≤ k) (hk' : k < indexBase o.mode) :
    entry (writePixelCodes p o pix wk ob pos) k = entry ob k :=
  (entry_writePixelCodes_of_lt wk ob p pix pos hk').trans (entry_writeAlpha_of_ge wk ob _ hpos hk)

end

/-! ### The fields of the finished block (R142, R144, R147, R148) -/

section
variable (p : Config.Params) {o : Operands} (pix : Vector Word 16) (wk : Work)

/-- The buffer before the codes of the pixels are written: the zero fill with the endpoints stored into it. -/
def endpointBuffer (m : Mode) (wk : Work) : Vector Byte 16 := writeEndpoints m wk (zeroFill m wk.ob)

theorem pack_ob :
    (pack p o pix wk).ob =
      (usedPositions o.w o.h).foldl (writePixelCodes p o pix (canon wk)) (endpointBuffer o.mode (canon wk)) := rfl

/-- A field of codes read back from the finished block: it starts as zeros, and the codes of each position write their
own place in it. -/
theorem streamBit_pack {L base : Nat} {code : Nat → BitVec L} (hw4 : o.w ≤ 4) (hh4 : o.h ≤ 4)
    (hzero : ∀ t, t < L * 16 → entry (endpointBuffer o.mode (canon wk)) (base + t / 8) = 0#8)
    (hcode : ∀ pos, pos < 16 → ∀ t, t < L * 16 → ∀ ob,
      entry (writePixelCodes p o pix (canon wk) ob pos) (base + t / 8) =
        entry (writeCode base pos (code pos) ob) (base + t / 8))
    (hfit : base + (L * 15 + (L - 1)) / 8 < 16) {x y e : Nat} (hx : x < 4) (hy : y < 4) (he : e < L) :
    streamBit base (L * (x + 4 * y) + e) (pack p o pix wk).ob =
      (decide (x < o.w ∧ y < o.h) && (code (x + 4 * y)).getLsbD e) := by
  have ht : L * (x + 4 * y) + e < L * 16 := by
    have hmul : L * (x + 4 * y) ≤ L * 15 := Nat.mul_le_mul_left L (by omega)
    omega
  rw [pack_ob, streamBit_foldl (q := x + 4 * y) (bit := fun pos => (code pos).getLsbD e),
    streamBit_of_entry_eq_zero (hzero _ ht), Bool.false_or, decide_eq_decide.mpr (mem_usedPositions_iff hw4 hx)]
  intro pos hpos ob
  have hpos : pos < 16 := lt_of_mem_usedPositions hw4 hh4 hpos
  have hmul : L * pos ≤ L * 15 := Nat.mul_le_mul_left L (by omega)
  rw [streamBit_congr (hcode pos hpos _ ht ob)]
  exact streamBit_writeCode base pos (x + 4 * y) (code pos) ob (by omega) he

theorem streamBit_pack_index (hw4 : o.w ≤ 4) (hh4 : o.h ≤ 4) {x y e : Nat} (hx : x < 4) (hy : y < 4) (he : e < 2) :
    streamBit (indexBase o.mode) (2 * (x + 4 * y) + e) (pack p o pix wk).ob =
      (decide (x < o.w ∧ y < o.h) &&
        (colorCode p o (pack p o pix wk) (entry pix (x + 4 * y))).getLsbD e) := by
  have hsize := modeSize_eq o.mode
  have h16 := modeSize_le o.mode
  refine streamBit_pack p pix wk (code := fun pos => colorCode p o (canon wk) (entry pix pos)) hw4 hh4
    (fun t ht => ?zero) (fun pos hpos t ht ob => ?code) (by omega) hx hy he
  case zero =>
    rw [endpointBuffer, entry_writeEndpoints_index _ _ (by omega), entry_zeroFill _ _ (by omega), if_pos (by omega)]
  case code =>
    exact entry_writeAlpha_of_ge _ _ _ hpos (by rw [indexBase]; omega)

/-- When every used position has colour code 0 the whole colour index field is 0: its bit t belongs to position
`t / 2`. -/
theorem streamBit_index_of_codes_zero (hw4 : o.w ≤ 4) (hh4 : o.h ≤ 4)
    (hcode : ∀ pos ∈ usedPositions o.w o.h, colorCode p o (pack p o pix wk) (entry pix pos) = 0#2) {t : Nat}
    (ht : t < 32) : streamBit (indexBase o.mode) t (pack p o pix wk).ob = false := by
  have hx : t / 2 % 4 < 4 := Nat.mod_lt _ (by decide)
  have hsplit : t = 2 * (t / 2 % 4 + 4 * (t / 2 / 4)) + t % 2 := by omega
  rw [hsplit, streamBit_pack_index p pix wk hw4 hh4 hx (by omega) (Nat.mod_lt _ (by decide))]
  by_cases hused : t / 2 % 4 < o.w ∧ t / 2 / 4 < o.h
  · rw [hcode _ ((mem_usedPositions_iff hw4 hx).mpr hused), BitVec.getLsbD_zero, Bool.and_false]
  · rw [decide_eq_false hused, Bool.false_and]

theorem streamBit_pack_dxt3 (hm : o.mode = .dxt3) (hw4 : o.w ≤ 4) (hh4 : o.h ≤ 4) {x y e : Nat} (hx : x < 4)
    (hy : y < 4) (he : e < 4) :
    streamBit 0 (4 * (x + 4 * y) + e) (pack p o pix wk).ob =
      (decide (x < o.w ∧ y < o.h) && (q4 (pixelAlpha (entry pix (x + 4 * y)))).getLsbD e) := by
  refine streamBit_pack p pix wk (code := fun pos => q4 (pixelAlpha (entry pix pos))) hw4 hh4
    (fun t ht => ?zero) (fun pos hpos t ht ob => ?code) (by decide) hx hy he
  case zero =>
    rw [hm, endpointBuffer, entry_writeEndpoints_dxt3 _ _ (by omega), entry_zeroFill _ _ (by omega), modeSize,
      if_pos (by omega)]
  case code =>
    rw [entry_writePixelCodes_of_lt _ _ _ _ _ (by rw [hm, indexBase, colorBase]; omega)]
    simp only [writeAlpha, hm]

theorem streamBit_pack_dxt5 (hm : o.mode = .dxt5) (hw4 : o.w ≤ 4) (hh4 : o.h ≤ 4) {x y e : Nat} (hx : x < 4)
    (hy : y < 4) (he : e < 3) :
    streamBit 2 (3 * (x + 4 * y) + e) (pack p o pix wk).ob =
      (decide (x < o.w ∧ y < o.h) &&
        (acode (pack p o pix wk).alpha0 (pack p o pix wk).alpha1 (pixelAlpha (entry pix (x + 4 * y)))).getLsbD e) := by
  refine streamBit_pack p pix wk
    (code := fun pos => acode (canon wk).alpha0 (canon wk).alpha1 (pixelAlpha (entry pix pos))) hw4 hh4
    (fun t ht => ?zero) (fun pos hpos t ht ob => ?code) (by decide) hx hy he
  case zero =>
    rw [hm, endpointBuffer, entry_writeEndpoints_dxt5 _ _ (by omega), if_neg (by omega), if_neg (by omega),
      entry_zeroFill _ _ (by omega), modeSize, if_pos (by omega)]
  case code =>
    exact entry_writePixelCodes_dxt5 p pix _ _ _ hm (by omega)

/-! ### The endpoint bytes of the finished block (R135 to R137) -/

/-- A byte no position's codes write is the endpoint store's. -/
theorem entry_pack_of_codes_leave {k : Nat} (hw4 : o.w ≤ 4) (hh4 : o.h ≤ 4)
    (h : ∀ pos, pos < 16 → ∀ ob, entry (writePixelCodes p o pix (canon wk) ob pos) k = entry ob k) :
    entry (pack p o pix wk).ob k = entry (endpointBuffer o.mode (canon wk)) k := by
  rw [pack_ob]
  exact List.foldlRecOn (motive := fun ob => entry ob k = entry (endpointBuffer o.mode (canon wk)) k) _ _ rfl
    fun ob hob pos hpos => (h pos (lt_of_mem_usedPositions hw4 hh4 hpos) ob).trans hob

theorem entry_pack_colors (hw4 : o.w ≤ 4) (hh4 : o.h ≤ 4) :
    entry (pack p o pix wk).ob (colorBase o.mode) = (pack565 (pack p o pix wk).color0).extractLsb' 0 8 ∧
    entry (pack p o pix wk).ob (colorBase o.mode + 1) = (pack565 (pack p o pix wk).color0).extractLsb' 8 8 ∧
    entry (pack p o pix wk).ob (colorBase o.mode + 2) = (pack565 (pack p o pix wk).color1).extractLsb' 0 8 ∧
    entry (pack p o pix wk).ob (colorBase o.mode + 3) = (pack565 (pack p o pix wk).color1).extractLsb' 8 8 := by
  have hbyte (i : Nat) (hi : i < 4) : entry (pack p o pix wk).ob (colorBase o.mode + i) =
      entry (write16le (write16le (zeroFill o.mode (canon wk).ob) (colorBase o.mode) (pack565 (canon wk).color0))
        (colorBase o.mode + 2) (pack565 (canon wk).color1)) (colorBase o.mode + i) := by
    rw [entry_pack_of_codes_leave p pix wk hw4 hh4 fun pos hpos ob =>
      entry_writePixelCodes_color _ _ _ _ _ hpos (by omega) (by rw [indexBase]; omega)]
    exact entry_writeEndpoints_of_ge _ _ (by omega)
  have hfit : colorBase o.mode + 3 < 16 := by rw [colorBase_eq]; split <;> decide
  refine ⟨(hbyte 0 (by decide)).trans ?_, (hbyte 1 (by decide)).trans ?_, (hbyte 2 (by decide)).trans ?_,
    (hbyte 3 (by decide)).trans ?_⟩
  · rw [entry_write16le_of_ne _ _ (by omega) (by omega)]
    exact entry_write16le_low _ _ (by omega)
  · rw [entry_write16le_of_ne _ _ (by omega) (by omega)]
    exact entry_write16le_high _ _ (by omega)
  · exact entry_write16le_low _ _ (by omega)
  · exact entry_write16le_high _ _ hfit

theorem entry_pack_alphas (hm : o.mode = .dxt5) (hw4 : o.w ≤ 4) (hh4 : o.h ≤ 4) :
    entry (pack p o pix wk).ob 0 = (pack p o pix wk).alpha0 ∧
    entry (pack p o pix wk).ob 1 = (pack p o pix wk).alpha1 := by
  have hbyte (k : Nat) (hk : k < 2) :
      entry (pack p o pix wk).ob k = entry (endpointBuffer .dxt5 (canon wk)) k := by
    rw [← hm]
    exact entry_pack_of_codes_leave p pix wk hw4 hh4 fun pos _ ob =>
      (entry_writePixelCodes_dxt5 p pix _ _ _ hm (by omega)).trans (entry_writeCode_of_lt _ _ _ _ hk)
  exact ⟨(hbyte 0 (by decide)).trans (entry_writeEndpoints_dxt5 _ _ (by decide)),
    (hbyte 1 (by decide)).trans (entry_writeEndpoints_dxt5 _ _ (by decide))⟩

end

/-! ### The endpoints of the finished block (R131, 42_color_reducer.md R115, 43_alpha_reducer.md R125) -/

/-- The search's pair by its costs: least of all, and strictly below every pair before it. -/
theorem search_cost_first_least {n : Nat} (cost : Nat → Nat → Int) {i j : Nat} (hij : i < j) (hj : j < n) :
    cost (search n cost).i (search n cost).j ≤ cost i j ∧
    (i < (search n cost).i ∨ i = (search n cost).i ∧ j < (search n cost).j →
      cost (search n cost).i (search n cost).j < cost i j) := by
  have hfirst := search_first_least cost hij hj
  rwa [search_cost] at hfirst

/-- The colour of sample k, as COLLECT gathers it (40_sample_collector.md R82). -/
def sampleColor (w : Nat) (pix : Vector Word 16) (k : Nat) : Color := pixelColor (entry pix (samplePos w k))

/-- The alpha of sample k, as COLLECT gathers it. -/
def sampleAlpha (w : Nat) (pix : Vector Word 16) (k : Nat) : Byte := pixelAlpha (entry pix (samplePos w k))

/-- S(i, j) of a list of colours given by their numbers (42_color_reducer.md R111): `sampleCost` over `entry c`. -/
def colorPairCost (p : Config.Params) (m : Metric) (n : Nat) (c : Nat → Color) (i j : Nat) : Int :=
  ∑ k ∈ Finset.range n, min (dist p m (c i) (c k)) (dist p m (c j) (c k))

/-- SA(i, j) of a list of alphas given by their numbers (43_alpha_reducer.md R121): `sampleAlphaCost` over `entry a`. -/
def alphaPairCost (n : Nat) (a : Nat → Byte) (i j : Nat) : Int :=
  ∑ k ∈ Finset.range n,
    min (min (distAlpha (a i) (a k)) (distAlpha (a j) (a k))) (min (distAlpha 0#8 (a k)) (distAlpha 255#8 (a k)))

section
variable {n i j : Nat}

theorem sampleCost_eq_colorPairCost (p : Config.Params) (m : Metric) {c : Vector Color 16} {c' : Nat → Color}
    (h : ∀ k, k < n → entry c k = c' k) (hi : i < n) (hj : j < n) :
    sampleCost p m c n i j = colorPairCost p m n c' i j :=
  Finset.sum_congr rfl fun k hk => by rw [h i hi, h j hj, h k (Finset.mem_range.mp hk)]

theorem sampleAlphaCost_eq_alphaPairCost {a : Vector Byte 16} {a' : Nat → Byte} (h : ∀ k, k < n → entry a k = a' k)
    (hi : i < n) (hj : j < n) : sampleAlphaCost a n i j = alphaPairCost n a' i j :=
  Finset.sum_congr rfl fun k hk => by rw [h i hi, h j hj, h k (Finset.mem_range.mp hk)]

end

section
variable (p : Config.Params) {o : Operands} (pix : Vector Word 16) (wk : Work)

theorem entry_collect_c_sample (hn : o.n ≤ 16) {k : Nat} (hk : k < o.n) :
    entry (collect o.w o.h pix wk).c k = sampleColor o.w pix k := entry_collect_c _ _ _ _ hk (by omega)

theorem entry_collect_a_sample (hn : o.n ≤ 16) {k : Nat} (hk : k < o.n) :
    entry (collect o.w o.h pix wk).a k = sampleAlpha o.w pix k := entry_collect_a _ _ _ _ hk (by omega)

/-- The final colour endpoints are REDUCE_COLOR's in canonical order. -/
theorem encodeWork_colors {c0 c1 : Color}
    (h0 : (reduceColor p o.metric o.n (collect o.w o.h pix wk)).color0 = c0)
    (h1 : (reduceColor p o.metric o.n (collect o.w o.h pix wk)).color1 = c1) :
    (encodeWork p o pix wk).color0 = (if lexless c0 c1 then c1 else c0) ∧
    (encodeWork p o pix wk).color1 = (if lexless c0 c1 then c0 else c1) := by
  subst h0 h1
  rw [← reduce_color0, ← reduce_color1, ← canon_color0, ← canon_color1]
  exact ⟨rfl, rfl⟩

/-- The final alpha endpoints of DXT5 are REDUCE_ALPHA's. -/
theorem encodeWork_alphas (hm : o.mode = .dxt5) :
    let r := reduceAlpha o.n (reduceColor p o.metric o.n (collect o.w o.h pix wk))
    (encodeWork p o pix wk).alpha0 = r.alpha0 ∧ (encodeWork p o pix wk).alpha1 = r.alpha1 := by
  have hreduce : reduce p o (collect o.w o.h pix wk) =
      reduceAlpha o.n (reduceColor p o.metric o.n (collect o.w o.h pix wk)) := by simp only [reduce, hm]
  rw [← hreduce]
  exact ⟨canon_alpha0 _, canon_alpha1 _⟩

theorem encodeWork_colors_of_one (hn : o.n = 1) :
    (encodeWork p o pix wk).color0 = sampleColor o.w pix 0 ∧
    (encodeWork p o pix wk).color1 = sampleColor o.w pix 0 := by
  have hsample := entry_collect_c_sample pix wk (o := o) (k := 0) (by omega) (by omega)
  have hcolors := encodeWork_colors p pix wk (o := o) (c0 := sampleColor o.w pix 0) (c1 := sampleColor o.w pix 0)
    (by rw [hn, reduceColor_one, hsample]) (by rw [hn, reduceColor_one, hsample])
  simpa only [ite_self] using hcolors

theorem encodeWork_alphas_of_one (hm : o.mode = .dxt5) (hn : o.n = 1) :
    (encodeWork p o pix wk).alpha0 = sampleAlpha o.w pix 0 ∧
    (encodeWork p o pix wk).alpha1 = sampleAlpha o.w pix 0 := by
  have hsample := entry_collect_a_sample pix wk (o := o) (k := 0) (by omega) (by omega)
  simp only [encodeWork_alphas p pix wk hm, hn, reduceAlpha_one, reduceColor_a, hsample, and_self]

/-- The final colour endpoints are the first least-cost pair of the samples, in canonical order. -/
theorem encodeWork_colors_of_two_le (h2 : 2 ≤ o.n) (hn : o.n ≤ 16) :
    let b := search o.n (colorPairCost p o.metric o.n (sampleColor o.w pix))
    let ci := sampleColor o.w pix b.i
    let cj := sampleColor o.w pix b.j
    (encodeWork p o pix wk).color0 = (if lexless ci cj then cj else ci) ∧
    (encodeWork p o pix wk).color1 = (if lexless ci cj then ci else cj) := by
  have hsample := @entry_collect_c_sample o pix wk hn
  have hsearch := search_congr h2 fun i j hi hj =>
    sampleCost_eq_colorPairCost p o.metric (fun k => hsample (k := k)) hi hj
  obtain ⟨hi, hj⟩ := search_bounds (colorPairCost p o.metric o.n (sampleColor o.w pix)) h2
  exact encodeWork_colors p pix wk
    (by rw [reduceColor_color0 _ _ _ h2 hn, hsearch, hsample hi])
    (by rw [reduceColor_color1 _ _ _ h2 hn, hsearch, hsample hj])

/-- The final alpha endpoints of DXT5 are the first least-cost pair of the alphas, ascending. -/
theorem encodeWork_alphas_of_two_le (hm : o.mode = .dxt5) (h2 : 2 ≤ o.n) (hn : o.n ≤ 16) :
    let b := search o.n (alphaPairCost o.n (sampleAlpha o.w pix))
    let ai := sampleAlpha o.w pix b.i
    let aj := sampleAlpha o.w pix b.j
    (encodeWork p o pix wk).alpha0 = (if aj.toNat < ai.toNat then aj else ai) ∧
    (encodeWork p o pix wk).alpha1 = (if aj.toNat < ai.toNat then ai else aj) := by
  have hsample := @entry_collect_a_sample o pix wk hn
  have hsearch := search_congr h2 fun i j hi hj =>
    sampleAlphaCost_eq_alphaPairCost (fun k => hsample (k := k)) hi hj
  obtain ⟨hi, hj⟩ := search_bounds (alphaPairCost o.n (sampleAlpha o.w pix)) h2
  simp only [encodeWork_alphas p pix wk hm, reduceAlpha_eq_setAlphas _ h2 hn, reduceColor_a, hsearch, hsample hi,
    hsample hj, setAlphas_alpha0, setAlphas_alpha1, and_self]

/-! ### The properties of a finished block (R150) -/

theorem reduceAlpha_ascending (n : Nat) (wk : Work) :
    (reduceAlpha n wk).alpha0.toNat ≤ (reduceAlpha n wk).alpha1.toNat := by
  unfold reduceAlpha; split <;> exact setAlphas_ascending _ _ _

theorem entry_encodeWork_alphas (hm : o.mode = .dxt5) (hw4 : o.w ≤ 4) (hh4 : o.h ≤ 4) :
    entry (encodeWork p o pix wk).ob 0 = (encodeWork p o pix wk).alpha0 ∧
    entry (encodeWork p o pix wk).ob 1 = (encodeWork p o pix wk).alpha1 :=
  entry_pack_alphas p pix _ hm hw4 hh4

theorem encodeWork_canonical :
    lexless (encodeWork p o pix wk).color0 (encodeWork p o pix wk).color1 = false :=
  lexless_canon (reduce p o (collect o.w o.h pix wk))

/-- A block of one colour gets that colour twice. -/
theorem encodeWork_colors_of_uniform (hw1 : 1 ≤ o.w) (h1 : 1 ≤ o.n) (hn : o.n ≤ 16) {c : Color}
    (huniform : ∀ pos ∈ usedPositions o.w o.h, pixelColor (entry pix pos) = c) :
    (encodeWork p o pix wk).color0 = c ∧ (encodeWork p o pix wk).color1 = c := by
  have hsample (k : Nat) (hk : k < o.n) : entry (collect o.w o.h pix wk).c k = c :=
    (entry_collect_c_sample pix wk hn hk).trans (huniform _ (samplePos_mem_usedPositions hw1 hk))
  obtain ⟨⟨i, hi, h0⟩, j, hj, h1⟩ := reduceColor_endpoints_mem p o.metric (collect o.w o.h pix wk) h1 hn
  simpa only [ite_self] using encodeWork_colors p pix wk (h0.trans (hsample i hi)) (h1.trans (hsample j hj))

end

end Sys2Proof.Machine

namespace Sys2Proof.Proofs

open Sys2Proof.Machine

/-- Settles O33, by the bytes WRITE16LE stores, the bit SETBIT ORs, and the fold of SETBITs over a code. -/
theorem bitPackerWritesExactlyItsBits : Obligations.BitPackerWritesExactlyItsBits := by
  refine ⟨fun ob b k v hb hk => ?_, fun ob base t k e hb _ _ => getLsbD_entry_setBit ob base t k e hb,
    fun L ob base pos k e c hb _ he => getLsbD_entry_writeCode base pos c ob k hb he⟩
  split
  next hlow => rw [hlow, entry_write16le_low _ _ (by omega)]
  next hlow =>
    split
    next hhigh => rw [hhigh, entry_write16le_high _ _ hb]
    next hhigh => exact entry_write16le_of_ne _ _ hlow hhigh

/-- Settles O36: no code of a position touches the endpoint bytes, and the endpoints are the reducers' selections over
the samples, CANON applied to the colours. -/
theorem endpointBytesOfFinishedBlock : Obligations.EndpointBytesOfFinishedBlock := by
  intro p o pix wk hw1 hw4 hh1 hh4
  obtain ⟨-, hn⟩ := operands_n_bounds hw1 hw4 hh1 hh4
  obtain ⟨hb0, hb1, hb2, hb3⟩ := entry_pack_colors p pix (reduce p o (collect o.w o.h pix wk)) hw4 hh4
  simp only [← colorBase_eq]
  refine ⟨hb0, hb1, hb2, hb3, fun hm => entry_encodeWork_alphas p pix wk hm hw4 hh4, fun h1 => ?one,
    fun h2 => ⟨?color, fun hm => ?alpha⟩⟩
  case one =>
    obtain ⟨hc0, hc1⟩ := encodeWork_colors_of_one p pix wk h1
    exact ⟨hc0, hc1, fun hm => encodeWork_alphas_of_one p pix wk hm h1⟩
  case color =>
    obtain ⟨hc0, hc1⟩ := encodeWork_colors_of_two_le p pix wk h2 hn
    obtain ⟨hij, hj⟩ := search_ordered (colorPairCost p o.metric o.n (sampleColor o.w pix)) h2
    refine ⟨_, _, hij, hj, fun _ _ => search_cost_first_least (colorPairCost p o.metric o.n (sampleColor o.w pix)),
      fun hlex => ?_, fun hlex => ?_⟩
    · exact ⟨hc0.trans (if_neg (Bool.eq_false_iff.mp hlex)), hc1.trans (if_neg (Bool.eq_false_iff.mp hlex))⟩
    · exact ⟨hc0.trans (if_pos hlex), hc1.trans (if_pos hlex)⟩
  case alpha =>
    obtain ⟨ha0, ha1⟩ := encodeWork_alphas_of_two_le p pix wk hm h2 hn
    obtain ⟨hij, hj⟩ := search_ordered (alphaPairCost o.n (sampleAlpha o.w pix)) h2
    refine ⟨_, _, hij, hj, fun _ _ => search_cost_first_least (alphaPairCost o.n (sampleAlpha o.w pix)),
      fun hle => ?_, fun hlt => ?_⟩
    · exact ⟨ha0.trans (if_neg (Nat.not_lt.mpr hle)), ha1.trans (if_neg (Nat.not_lt.mpr hle))⟩
    · exact ⟨ha0.trans (if_pos hlt), ha1.trans (if_pos hlt)⟩

/-- Settles O37: the colour index field starts as zeros, and each used position ORs its colour code into its
own bits. -/
theorem colourIndexFieldReadsBack : Obligations.ColourIndexFieldReadsBack := by
  intro p o pix wk _ hw4 _ hh4 x y e hx hy he
  rw [← indexBase_eq]
  exact streamBit_pack_index p pix _ hw4 hh4 hx hy he

/-- Settles O38: bit e of Q4 is alpha bit 4 + e, which is pixel bit 28 + e. -/
theorem dxt3AlphaFieldReadsBack : Obligations.Dxt3AlphaFieldReadsBack := by
  intro p o pix wk hm _ hw4 _ hh4 x y e hx hy he
  rw [← getLsbD_q4_pixelAlpha _ he]
  exact streamBit_pack_dxt3 p pix _ hm hw4 hh4 hx hy he

/-- Settles O39: the alpha code field starts as zeros, and each used position ORs its alpha code into its own bits. -/
theorem dxt5AlphaFieldReadsBack : Obligations.Dxt5AlphaFieldReadsBack :=
  fun p _ pix _ hm _ hw4 _ hh4 _ _ _ hx hy he => streamBit_pack_dxt5 p pix _ hm hw4 hh4 hx hy he

/-- Settles O40: the alphas were sorted and the colours put in canonical order, and between equal endpoints no pixel is
strictly closer to the second. -/
theorem finishedBlockProperties : Obligations.FinishedBlockProperties := by
  intro p o pix wk hw1 hw4 hh1 hh4
  obtain ⟨h1, hn⟩ := operands_n_bounds hw1 hw4 hh1 hh4
  refine ⟨fun hm => ?ascending, encodeWork_canonical p pix wk, fun px hpix hpx => ?uniform⟩
  case ascending =>
    obtain ⟨hb0, hb1⟩ := entry_encodeWork_alphas p pix wk hm hw4 hh4
    obtain ⟨ha0, ha1⟩ := encodeWork_alphas p pix wk hm
    rw [hb0, hb1, ha0, ha1]
    exact reduceAlpha_ascending _ _
  case uniform =>
    obtain ⟨hc0, hc1⟩ := encodeWork_colors_of_uniform p pix wk hw1 h1 hn
      fun pos hpos => congrArg pixelColor (hpix pos hpos)
    refine ⟨hc0, hc1, fun t ht => ?_⟩
    rw [← indexBase_eq]
    refine streamBit_index_of_codes_zero p pix _ hw4 hh4 (fun pos hpos => ?_) ht
    rw [hpix pos hpos]
    exact colorCode_of_equal_endpoints p (hc0.trans hc1.symm) hpx

/-- Settles O30: a comparison of base-256 numerals decides at the first digit that differs. -/
theorem lexlessComparesConcatenations : Obligations.LexlessComparesConcatenations :=
  fun a b => ⟨lexless_iff a b, lexless_iff_concat_lt a b⟩

/-- Settles O31: lexless is a strict order, so the swapped pair is canonical. -/
theorem canonOrdersEightBitEndpoints : Obligations.CanonOrdersEightBitEndpoints :=
  ⟨fun wk => ⟨canon_of_lexless, canon_of_not_lexless, lexless_canon wk⟩, by decide⟩

/-- Settles O32: the concatenation places the three fields at 2048, 32 and 1. -/
theorem pack565TakesTopBits : Obligations.Pack565TakesTopBits := ⟨toNat_pack565, by decide⟩

/-- Settles O34: the four cases of ACODE exclude each other, so the code names the case. -/
theorem alphaCodesTakeLeastDistanceByPriority : Obligations.AlphaCodesTakeLeastDistanceByPriority := by
  refine ⟨toNat_q4, fun a0 a1 pa => ?_⟩
  rcases acode_cases a0 a1 pa with ⟨h, hcode⟩ | ⟨h, hcode⟩ | ⟨h, hcode⟩ | ⟨h, hcode⟩ <;>
    · simp only [hcode, BitVec.reduceEq, false_iff, true_iff]
      omega

/-- Settles O35: the colour code of every mode is CIDX, under DXT1's punch-through. -/
theorem colourCodeTakesCloserEndpoint : Obligations.ColourCodeTakesCloserEndpoint := by
  intro p o wk px
  simp only [colorCode_eq, pixelAlpha_eq_zero_iff]
  rfl

end Sys2Proof.Proofs
end

section
/-! SUPPORT. The statements of 45_commands.md: the bus operations and the accesses that are none (R165 to R173), the
completion of a command with its bytes (R161 to R164, R174), and the run from acceptance to completion (R166). -/

namespace Sys2Proof.Machine

/-! ### The host's turn (R173) -/

theorem decodeAccess_of_width_ne {a : Access} (hw : a.width ≠ 32) : decodeAccess a = .error .width :=
  if_neg hw

theorem fetchAccess_of_decodeAccess_error {a : Access} {e : BusFault} (hd : decodeAccess a = .error e) (s : State) :
    fetchAccess a s = .done (s.busError a.off) := by
  rw [fetchAccess, hd]

section
variable {s : State} {a : Access} {rest : List Turn}

theorem step_of_decodeAccess_ok {i : Instr} (ht : s.turns = .access a :: rest) (hd : decodeAccess a = .ok i) :
    step s = exec i { s with turns := rest } :=
  step_of_fetch_run ((fetch_of_access ht).trans (fetchAccess_of_decodeAccess_ok hd _))

theorem step_of_decodeAccess_error {e : BusFault} (ht : s.turns = .access a :: rest)
    (hd : decodeAccess a = .error e) :
    step s = .next { s with turns := rest, replies := .busError a.off :: s.replies } :=
  step_of_fetch_done ((fetch_of_access ht).trans (fetchAccess_of_decodeAccess_error hd _))

end

/-- An access whose bus word is a bus operation runs it at width 32 and gets BusError at any other width. -/
theorem step_access_of_decodeBus {bt : BitVec 9} {data : Word} {i : Instr} (h : decodeBus bt data = .ok i)
    (s : State) (rest : List Turn) (width : Nat) :
    step { s with turns := .access ⟨width, bt, data⟩ :: rest } =
      if width = 32 then exec i { s with turns := rest }
      else .next { s with turns := rest, replies := .busError (busOff bt) :: s.replies } := by
  split
  next hw => exact step_of_decodeAccess_ok rfl ((decodeAccess_of_width_eq hw).trans h)
  next hw => exact step_of_decodeAccess_error rfl (decodeAccess_of_width_ne (a := ⟨width, bt, data⟩) hw)

/-- The rows of 30_encoding.md R62, under their masks, are the complement of the illegal offset ranges. -/
theorem bus_rows_iff_not_illegalAccess (bt : BitVec 9) (data : Word) :
    (bt = 0x000#9 ∨ bt = 0x100#9 ∨ bt = 0x004#9 ∨ bt &&& 0x1C3#9 = 0x040#9 ∨ bt &&& 0x1C3#9 = 0x140#9 ∨
      bt &&& 0x1F3#9 = 0x080#9) ↔ ¬ IllegalAccess ⟨32, bt, data⟩ := by
  simp only [IllegalAccess, Access.off]
  clear data
  revert bt
  decide

theorem exists_decodeBus_eq_ok_iff (bt : BitVec 9) (data : Word) :
    (∃ i, decodeBus bt data = .ok i) ↔ ¬ IllegalAccess ⟨32, bt, data⟩ := by
  simp only [decodeBus_eq_ok_iff, exists_or, exists_eq_right, bus_rows_iff_not_illegalAccess bt data]

theorem exists_decodeAccess_eq_ok_iff (a : Access) : (∃ i, decodeAccess a = .ok i) ↔ ¬ IllegalAccess a := by
  obtain ⟨width, bt, data⟩ := a
  by_cases hw : width = 32
  · subst hw
    exact exists_decodeBus_eq_ok_iff bt data
  · simp [decodeAccess_of_width_ne (a := ⟨width, bt, data⟩) hw, IllegalAccess, hw]

/-! ### The bus words of the indexed registers (30_encoding.md R62) -/

section
variable (data : Word)

theorem decodeBus_rdPix (k : Fin 16) : decodeBus (0x040#9 + BitVec.ofNat 9 (4 * k.val)) data = .ok (.rdPix k) := by
  have hrow : ∀ k : Fin 16, (0x040#9 + BitVec.ofNat 9 (4 * k.val)) &&& 0x1C3#9 = 0x040#9 := by decide
  have hslot : ∀ k : Fin 16, ((0x040#9 + BitVec.ofNat 9 (4 * k.val)).extractLsb' 2 4).toFin = k := by decide
  exact decodeBus_eq_ok_iff.mpr (.inr (.inr (.inr (.inl ⟨hrow k, by rw [hslot]⟩))))

theorem decodeBus_wrPix (k : Fin 16) :
    decodeBus (0x140#9 + BitVec.ofNat 9 (4 * k.val)) data = .ok (.wrPix k data) := by
  have hrow : ∀ k : Fin 16, (0x140#9 + BitVec.ofNat 9 (4 * k.val)) &&& 0x1C3#9 = 0x140#9 := by decide
  have hslot : ∀ k : Fin 16, ((0x140#9 + BitVec.ofNat 9 (4 * k.val)).extractLsb' 2 4).toFin = k := by decide
  exact decodeBus_eq_ok_iff.mpr (.inr (.inr (.inr (.inr (.inl ⟨hrow k, by rw [hslot]⟩)))))

theorem decodeBus_rdOut (i : Fin 4) : decodeBus (0x080#9 + BitVec.ofNat 9 (4 * i.val)) data = .ok (.rdOut i) := by
  have hrow : ∀ i : Fin 4, (0x080#9 + BitVec.ofNat 9 (4 * i.val)) &&& 0x1F3#9 = 0x080#9 := by decide
  have hword : ∀ i : Fin 4, ((0x080#9 + BitVec.ofNat 9 (4 * i.val)).extractLsb' 2 2).toFin = i := by decide
  exact decodeBus_eq_ok_iff.mpr (.inr (.inr (.inr (.inr (.inr ⟨hrow i, by rw [hword]⟩)))))

end

/-- OFF is the bus word modulo 256, so an operand adds the same to both. -/
theorem busOff_add_ofNat (base : BitVec 9) (n : Nat) :
    busOff (base + BitVec.ofNat 9 n) = busOff base + BitVec.ofNat 8 n := by
  apply BitVec.eq_of_toNat_eq
  simp only [busOff, BitVec.extractLsb'_toNat, BitVec.toNat_add, BitVec.toNat_ofNat, Nat.shiftRight_zero]
  omega

/-! ### What the host writes and reads (R165, R168 to R171) -/

theorem exec_wrCmd_accepted {s : State} {v : Word} (hidle : s.busy = false) (hcheck : s.check v = none) :
    exec (.wrCmd v) s = .next (((s.storeCmd v).accept v).reply .written) := by
  rw [exec, execWrCmd, writeCmd_accepted s v hidle hcheck]

@[simp] theorem writeCmd_replies (s : State) (v : Word) : (s.writeCmd v).replies = s.replies := by
  rcases writeCmd_cases s v with ⟨-, hw⟩ | ⟨-, -, hw⟩ | ⟨e, -, -, hw⟩ <;> simp [hw]

theorem readPix_writePix_same (s : State) (k : Fin 16) (v : Word) : (s.writePix k v).readPix k = v := by
  have hvalid : (s.writePix k v).valid k.val = true := by simp [valid_writePix s k v k.isLt]
  simp [State.readPix, hvalid]

/-- The fields of STATUS at their places (R169). -/
theorem statusWord_fields (s : State) :
    s.statusWord.getLsbD 0 = s.busy ∧ s.statusWord.getLsbD 1 = s.done ∧ s.statusWord.extractLsb' 2 2 = 0#2 ∧
    s.statusWord.extractLsb' 4 4 = s.err ∧ s.statusWord.getLsbD 8 = s.drop ∧ s.statusWord.extractLsb' 9 7 = 0#7 ∧
    s.statusWord.extractLsb' 16 16 = s.pv := by
  unfold State.statusWord
  refine ⟨?busy, ?done, ?zeros2, ?err, ?drop, ?zeros7, ?pv⟩
  case busy | done | drop =>
    simp only [BitVec.getLsbD_append]
    simp
  case zeros2 =>
    iterate 2 refine (BitVec.extractLsb'_append_eq_of_le (by decide)).trans ?_
    exact extractLsb'_append_low _ _
  case err =>
    iterate 3 refine (BitVec.extractLsb'_append_eq_of_le (by decide)).trans ?_
    exact extractLsb'_append_low _ _
  case zeros7 =>
    iterate 5 refine (BitVec.extractLsb'_append_eq_of_le (by decide)).trans ?_
    exact extractLsb'_append_low _ _
  case pv =>
    iterate 6 refine (BitVec.extractLsb'_append_eq_of_le (by decide)).trans ?_
    exact BitVec.extractLsb'_eq_self

theorem sizeOk_iff (d : BitVec 3) : sizeOk d = true ↔ 1 ≤ d.toNat ∧ d.toNat ≤ 4 := by
  simp [sizeOk]

/-- Every legal command uses slot 0. -/
theorem LegalCommand.zero_mem_cmdPositions {v : Word} (h : LegalCommand v) : 0 ∈ cmdPositions v := by
  obtain ⟨-, -, hw, hh⟩ := h
  obtain ⟨hw1, hw4⟩ := (sizeOk_iff _).mp hw
  obtain ⟨hh1, -⟩ := (sizeOk_iff _).mp hh
  exact (mem_usedPositions_iff (x := 0) (y := 0) hw4 (by decide)).mpr ⟨hw1, hh1⟩

/-- STATUS is never BUSY alone: the running command uses slot 0, whose valid bit is STATUS bit 16. -/
theorem State.Inv.statusWord_ne_one {s : State} (h : s.Inv) : s.statusWord ≠ 0x00000001#32 := by
  intro heq
  have hbusy : s.busy = true := by rw [← (statusWord_fields s).1, heq]; rfl
  have hvalid := h.snap_valid hbusy 0 (h.snap_legal hbusy).zero_mem_cmdPositions
  rw [← statusWord_getLsbD_valid, heq] at hvalid
  exact absurd hvalid (by decide)

/-! ### The OUT words of a block (R174) -/

section
variable (p : Config.Params) (o : Operands) (pix : Vector Word 16) (wk : Work)

theorem length_encodeBlock : (encodeBlock p o pix wk).length = modeSize o.mode := by
  have hsize : modeSize o.mode ≤ 16 := by cases o.mode <;> decide
  simp [encodeBlock, hsize]

theorem four_dvd_length_encodeBlock : 4 ∣ (encodeBlock p o pix wk).length := by
  rw [length_encodeBlock]
  cases o.mode <;> decide

/-- Byte b of the block is byte b of OB, and past the block's size there is none. -/
theorem blockByte_encodeBlock (b : Nat) : blockByte (encodeBlock p o pix wk) b =
    if b < modeSize o.mode then entry (encodeWork p o pix wk).ob b else 0#8 := by
  rw [blockByte, encodeBlock, List.getElem?_take]
  split
  · exact entry_toList _ b
  · rfl

end

/-- Byte j of a little-endian word. -/
theorem extractLsb'_wordOfBytes (f : Nat → Byte) {j : Nat} (hj : j < 4) :
    (wordOfBytes (f 0) (f 1) (f 2) (f 3)).extractLsb' (8 * j) 8 = f j := by
  unfold wordOfBytes
  interval_cases j
  · exact extractLsb'_append_low _ _
  · refine (BitVec.extractLsb'_append_eq_of_le (by decide)).trans ?_
    exact extractLsb'_append_low _ _
  · iterate 2 refine (BitVec.extractLsb'_append_eq_of_le (by decide)).trans ?_
    exact extractLsb'_append_low _ _
  · iterate 3 refine (BitVec.extractLsb'_append_eq_of_le (by decide)).trans ?_
    exact BitVec.extractLsb'_eq_self

theorem outWords_getElem (bytes : List Byte) (i : Fin 4) : (outWords bytes)[i] =
    if i.val < bytes.length / 4 then
      wordOfBytes (blockByte bytes (4 * i.val)) (blockByte bytes (4 * i.val + 1)) (blockByte bytes (4 * i.val + 2))
        (blockByte bytes (4 * i.val + 3))
    else 0#32 := by
  simp [outWords]

theorem outWords_eq_zero_of_le {bytes : List Byte} {i : Fin 4} (h : bytes.length / 4 ≤ i.val) :
    (outWords bytes)[i] = 0#32 := by
  rw [outWords_getElem, if_neg (Nat.not_lt.mpr h)]

/-- Byte j of OUT word i is byte 4i + j of the block, of a size that is whole words. -/
theorem extractLsb'_outWords {bytes : List Byte} (h : 4 ∣ bytes.length) (i : Fin 4) {j : Nat} (hj : j < 4) :
    (outWords bytes)[i].extractLsb' (8 * j) 8 = blockByte bytes (4 * i.val + j) := by
  rw [outWords_getElem]
  split
  · exact extractLsb'_wordOfBytes (fun b => blockByte bytes (4 * i.val + b)) hj
  · have hpast : bytes.length ≤ 4 * i.val + j := by omega
    simp [blockByte, hpast]

/-! ### Completion with the block (R161 to R164) -/

/-- The encoder running a command of legal size, in every mode: OUT's bytes are OB's up to the mode's size and 0 from
there on. -/
theorem runCommand_writes_block {s : State} (mode : Mode) (metric : Metric) {w h : BitVec 3} (pte : Bool)
    (hb : s.busy = true) (hw : sizeOk w = true) (hh : sizeOk h = true) :
    ∃ (ws : Vector Word 4) (hid : Hidden) (fc : Nat),
      s.runCommand mode metric w h pte =
        { s with busy := false, done := true, out := ws, hidden := hid, freeCount := fc } ∧
      ∀ (i : Fin 4) (j : Nat), j < 4 → ws[i].extractLsb' (8 * j) 8 =
        if 4 * i.val + j < modeSize mode then
          entry (encodeWork s.params ⟨mode, metric, w.toNat, h.toNat, pte⟩ s.hidden.snapPix s.hidden.work).ob
            (4 * i.val + j)
        else 0#8 := by
  refine ⟨_, _, _, runCommand_legal s mode metric w h pte hb hw hh, fun i j hj => ?_⟩
  rw [extractLsb'_outWords (four_dvd_length_encodeBlock _ _ _ _) i hj, blockByte_encodeBlock]

/-- Every byte of OUT lies within a block of 16 bytes. -/
theorem outByte_lt (i : Fin 4) {j : Nat} (hj : j < 4) : 4 * i.val + j < 16 := by omega

/-! ### Acceptance, as the host's turn (R165) -/

theorem step_accepts {s : State} {v : Word} {rest : List Turn} (ht : s.turns = .access ⟨32, 0x100#9, v⟩ :: rest)
    (hidle : s.busy = false) (hcheck : s.check v = none) :
    ∃ t, step s = .next t ∧ t.turns = rest ∧ t.busy = true ∧ t.cmd = v ∧ t.err = 0#4 ∧
      t.hidden = ⟨v, s.pix, s.hidden.work⟩ ∧ t.params = s.params :=
  ⟨_, (step_of_decodeAccess_ok ht rfl).trans (exec_wrCmd_accepted hidle hcheck), rfl, rfl, rfl, rfl, rfl, rfl⟩

/-! ### A running encode under the host's turns (R166) -/

/-- t holds the encode of s as it is: the snapshot, CMD, STATUS but DROP and PVALID, OUT and the parameters. -/
structure State.SameEncode (s t : State) : Prop where
  hidden : t.hidden = s.hidden
  cmd : t.cmd = s.cmd
  busy : t.busy = s.busy
  done : t.done = s.done
  err : t.err = s.err
  out : t.out = s.out
  params : t.params = s.params

theorem State.SameEncode.refl (s : State) : s.SameEncode s := ⟨rfl, rfl, rfl, rfl, rfl, rfl, rfl⟩

theorem State.SameEncode.withTurns (s : State) (ts : List Turn) : s.SameEncode (s.withTurns ts) :=
  ⟨rfl, rfl, rfl, rfl, rfl, rfl, rfl⟩

theorem State.SameEncode.trans {s t u : State} (h : s.SameEncode t) (g : t.SameEncode u) : s.SameEncode u where
  hidden := g.hidden.trans h.hidden
  cmd := g.cmd.trans h.cmd
  busy := g.busy.trans h.busy
  done := g.done.trans h.done
  err := g.err.trans h.err
  out := g.out.trans h.out
  params := g.params.trans h.params

/-- A host's turn while BUSY: of the four effects only WR.CMD writes CMD or the snapshot, and it is dropped. -/
theorem AccessEffect.sameEncode {a : Access} {s t : State} (h : AccessEffect a s t) (hb : s.busy = true) :
    s.SameEncode t := by
  cases h with
  | error e hd ht => subst ht; exact ⟨rfl, rfl, rfl, rfl, rfl, rfl, rfl⟩
  | read i v hd hi ht => subst ht; exact ⟨rfl, rfl, rfl, rfl, rfl, rfl, rfl⟩
  | writePix k v hd ht => subst ht; exact ⟨rfl, rfl, rfl, rfl, rfl, rfl, rfl⟩
  | writeCmd v hd ht => subst ht; rw [writeCmd_busy s v hb]; exact ⟨rfl, rfl, rfl, rfl, rfl, rfl, rfl⟩

@[simp] theorem writeCmd_turns (s : State) (v : Word) : (s.writeCmd v).turns = s.turns := by
  rcases writeCmd_cases s v with ⟨-, hw⟩ | ⟨-, -, hw⟩ | ⟨e, -, -, hw⟩ <;> simp [hw]

theorem AccessEffect.turns_eq {a : Access} {s t : State} (h : AccessEffect a s t) : t.turns = s.turns := by
  cases h with
  | error e hd ht => rw [ht, State.busError_turns]
  | read i v hd hi ht => rw [ht, State.reply_turns]
  | writePix k v hd ht => rw [ht, State.reply_turns, State.writePix_turns]
  | writeCmd v hd ht => rw [ht, State.reply_turns, writeCmd_turns]

theorem exec_answers_next (i : Instr) (s : State) : ∃ t, exec i s = .next t := by
  cases i <;> exact ⟨_, rfl⟩

/-- A host's turn answers a next state, by one of its effects. -/
theorem step_access {s : State} {a : Access} {rest : List Turn} (ht : s.turns = .access a :: rest) :
    ∃ t, step s = .next t ∧ AccessEffect a (s.withTurns rest) t := by
  obtain ⟨t, hstep⟩ : ∃ t, step s = .next t := by
    cases hd : decodeAccess a with
    | ok i => rw [step_of_decodeAccess_ok ht hd]; exact exec_answers_next i _
    | error e => exact ⟨_, step_of_decodeAccess_error ht hd⟩
  refine ⟨t, hstep, ?_⟩
  rw [step, fetch_of_access ht] at hstep
  exact fetchAccess_effect hstep

/-- While BUSY any list of host's turns runs to a state that holds the encode as it is. -/
theorem run_accesses_sameEncode (n : Nat) (rest : List Turn) : ∀ (mid : List Access) (s : State), s.busy = true →
    s.turns = mid.map Turn.access ++ rest →
    ∃ t, Host.Core.run core (mid.length + n) s = Host.Core.run core n t ∧ t.turns = rest ∧ s.SameEncode t := by
  intro mid
  induction mid with
  | nil => exact fun s _ ht => ⟨s, by simp, ht, .refl s⟩
  | cons a mid ih =>
    intro s hb ht
    obtain ⟨t, hstep, heff⟩ := step_access ht
    have hsame : s.SameEncode t := (State.SameEncode.withTurns s _).trans (heff.sameEncode hb)
    obtain ⟨u, hrun, hturns, hu⟩ := ih t (hsame.busy.trans hb) heff.turns_eq
    refine ⟨u, ?_, hturns, hsame.trans hu⟩
    rw [List.length_cons, Nat.add_right_comm, run_step _ hstep, hrun]

/-! ### The encoder's turn on a legal snapshot (R164) -/

theorem decodeCmd_of_legalCommand {v : Word} {mode : Mode} (h : LegalCommand v) (hm : cmdMode v = codeOfMode mode) :
    ∃ i, decodeCmd v = .ok i ∧
      ∀ s, exec i s = .next (s.runCommand mode (metricOfCode (cmdMetric v)) (cmdW v) (cmdH v) (cmdPte v)) := by
  have hop : v &&& opcodeMask = (codeOfMode mode).setWidth 32 := by
    rw [and_opcodeMask_eq, h.1, BitVec.zero_or, hm]
  cases mode with
  | dxt1 => exact ⟨_, decodeCmd_eq_ok_iff.mpr (.inl ⟨hop, rfl⟩), fun _ => rfl⟩
  | dxt3 => exact ⟨_, decodeCmd_eq_ok_iff.mpr (.inr (.inl ⟨hop, rfl⟩)), fun _ => rfl⟩
  | dxt5 => exact ⟨_, decodeCmd_eq_ok_iff.mpr (.inr (.inr ⟨hop, rfl⟩)), fun _ => rfl⟩

theorem step_encoder_completes {s : State} {v : Word} {mode : Mode} {rest : List Turn}
    (ht : s.turns = .encoder :: rest) (hb : s.busy = true) (hsnap : s.hidden.snapCmd = v) (hv : LegalCommand v)
    (hm : cmdMode v = codeOfMode mode) :
    step s = .next ((s.withTurns rest).complete (outWords (encodeBlock s.params
      ⟨mode, metricOfCode (cmdMetric v), (cmdW v).toNat, (cmdH v).toNat, cmdPte v⟩ s.hidden.snapPix
      s.hidden.work))) := by
  obtain ⟨i, hdecode, hexec⟩ := decodeCmd_of_legalCommand hv hm
  have hfetch : fetch s = .run i (s.withTurns rest) := by
    rw [fetch_of_nextIsEncoder (.inr ⟨rest, ht⟩), ht]
    exact fetchCommand_of_busy hb (hsnap ▸ hdecode)
  obtain ⟨-, -, hw, hh⟩ := hv
  rw [step_of_fetch_run hfetch, hexec, runCommand_legal (s.withTurns rest) _ _ _ _ _ hb hw hh]
  rfl

end Sys2Proof.Machine

namespace Sys2Proof.Proofs

open Sys2Proof.Machine

/-- Settles O12: the block of DXT1 is 8 bytes. -/
theorem encDxt1CompletesWithEightBytes : Obligations.EncDxt1CompletesWithEightBytes := by
  intro s metric w h pte hb hw hh
  obtain ⟨ws, hid, fc, hrun, hbytes⟩ := runCommand_writes_block .dxt1 metric pte hb hw hh
  exact ⟨ws, hid, fc, congrArg Host.Outcome.next hrun, hbytes⟩

/-- Settles O13: the block of DXT3 fills OUT. -/
theorem encDxt3CompletesWithSixteenBytes : Obligations.EncDxt3CompletesWithSixteenBytes := by
  intro s metric w h pte hb hw hh
  obtain ⟨ws, hid, fc, hrun, hbytes⟩ := runCommand_writes_block .dxt3 metric pte hb hw hh
  exact ⟨ws, hid, fc, congrArg Host.Outcome.next hrun,
    fun i j hj => (hbytes i j hj).trans (if_pos (outByte_lt i hj))⟩

/-- Settles O14: the block of DXT5 fills OUT. -/
theorem encDxt5CompletesWithSixteenBytes : Obligations.EncDxt5CompletesWithSixteenBytes := by
  intro s metric w h pte hb hw hh
  obtain ⟨ws, hid, fc, hrun, hbytes⟩ := runCommand_writes_block .dxt5 metric pte hb hw hh
  exact ⟨ws, hid, fc, congrArg Host.Outcome.next hrun,
    fun i j hj => (hbytes i j hj).trans (if_pos (outByte_lt i hj))⟩

/-- Settles O49: an access decodes iff it is none of the illegal ones. -/
theorem illegalAccessesGetBusErrorOnly : Obligations.IllegalAccessesGetBusErrorOnly := by
  intro s a rest hturn
  constructor
  · intro hill
    cases hd : decodeAccess a with
    | ok i => exact absurd hill ((exists_decodeAccess_eq_ok_iff a).mp ⟨i, hd⟩)
    | error e => exact step_of_decodeAccess_error hturn hd
  · intro hlegal
    obtain ⟨i, hd⟩ := (exists_decodeAccess_eq_ok_iff a).mpr hlegal
    exact ⟨i, (nextAccess_iff hturn i).mpr hd, step_of_decodeAccess_ok hturn hd⟩

/-- Settles O58: acceptance takes the snapshot, the host's turns leave it, and the encoder's turn completes from it. -/
theorem acceptedCommandCompletesWithItsBlock : Obligations.AcceptedCommandCompletesWithItsBlock := by
  intro s v mode mid rest hidle hcheck hmode hturns
  obtain ⟨t, haccept, hturns, hbusy, hcmd, herr, hhidden, hparams⟩ := step_accepts hturns hidle hcheck
  obtain ⟨u, hrun, hturns, hsame⟩ := run_accesses_sameEncode 1 (.encoder :: rest) mid t hbusy hturns
  have hhidden : u.hidden = ⟨v, s.pix, s.hidden.work⟩ := hsame.hidden.trans hhidden
  have hparams : u.params = s.params := hsame.params.trans hparams
  have hlegal : LegalCommand v := ((check_eq_none_iff s v).mp hcheck).1
  have hcomplete := step_encoder_completes hturns (hsame.busy.trans hbusy) (congrArg Hidden.snapCmd hhidden) hlegal
    hmode
  rw [hhidden, hparams] at hcomplete
  have hrun := (run_step _ haccept).trans (hrun.trans (run_step 0 hcomplete))
  exact ⟨_, hrun, rfl, hsame.cmd.trans hcmd, rfl, rfl, hsame.err.trans herr, rfl⟩

/-- Settles O1, by the decode of word 0x000 and what the write of CMD stores while idle. -/
theorem readCmdReturnsLastStoredWord : Obligations.ReadCmdReturnsLastStoredWord := by
  refine ⟨fun _ => rfl, fun s rest width data => ?_, fun s v hidle => ⟨_, _, rfl, rfl, ?_⟩, rfl⟩
  · rw [step_access_of_decodeBus rfl]
    split <;> rfl
  · simp [writeCmd_cmd, hidle]

/-- Settles O2, by the place of each field in STATUS and the valid slot 0 of a running command. -/
theorem readStatusReturnsFieldsWithoutClearing : Obligations.ReadStatusReturnsFieldsWithoutClearing := by
  refine ⟨fun s => ⟨s.statusWord, rfl, ?_⟩, fun s rest width data => ?_, rfl⟩
  · obtain ⟨hbusy, hdone, hzeros, herr, hdrop, hzeros', hpv⟩ := statusWord_fields s
    exact ⟨hbusy, hdone, hzeros, herr, hdrop, hzeros', hpv, State.Inv.statusWord_ne_one⟩
  · rw [step_access_of_decodeBus rfl]
    split <;> rfl

/-- Settles O3, by the valid bits after WR.PIX and the decode of its bus words. -/
theorem writePixStoresWordAndSetsValid : Obligations.WritePixStoresWordAndSetsValid := by
  refine ⟨fun s k v => ⟨(s.writePix k v).pv, rfl, fun j => ?_⟩, fun s rest width k v => ?_⟩
  · simp only [Fin.ext_iff]
    exact valid_writePix s k v j.isLt
  · rw [step_access_of_decodeBus (decodeBus_wrPix v k), busOff_add_ofNat]
    rfl

/-- Settles O4, by the read of the slot just written and the decode of RD.PIX's bus words. -/
theorem readPixReturnsWordOrZero : Obligations.ReadPixReturnsWordOrZero := by
  refine ⟨fun _ _ => rfl, fun s k v => ⟨_, _, rfl, rfl, ?_⟩, fun s rest width k data => ?_, rfl⟩
  · exact congrArg (fun w => .data w :: .written :: s.replies) (readPix_writePix_same s k v)
  · rw [step_access_of_decodeBus (decodeBus_rdPix data k), busOff_add_ofNat]
    rfl

/-- Settles O5: no write of CMD reaches OUT, and words 2 and 3 lie past the 8 bytes of a DXT1 block. -/
theorem readOutReturnsLastResult : Obligations.ReadOutReturnsLastResult := by
  refine ⟨fun _ _ => rfl, fun s rest width i data => ?_, fun s v => ⟨_, rfl, writeCmd_out s v⟩,
    fun s metric w h pte hb hw hh => ?_⟩
  · rw [step_access_of_decodeBus (decodeBus_rdOut data i), busOff_add_ofNat]
    rfl
  · have hcomplete := runCommand_legal s .dxt1 metric w h pte hb hw hh
    refine ⟨_, congrArg Host.Outcome.next hcomplete, ?_, ?_⟩
    · exact outWords_eq_zero_of_le (i := 2) (by simp [length_encodeBlock, modeSize])
    · exact outWords_eq_zero_of_le (i := 3) (by simp [length_encodeBlock, modeSize])

/-- Settles O7: acceptance after the store of CMD, which CHECK does not read. -/
theorem writeCmdAcceptsCheckedWord : Obligations.WriteCmdAcceptsCheckedWord :=
  fun _ _ => exec_wrCmd_accepted

end Sys2Proof.Proofs
end

section
/-! SUPPORT. The statements of 60_exceptions.md: the drop and the rejection of a WR.CMD (R181, R187, R189), the order of
CHECK (R188), and the fields of STATUS that hold until the next WR.CMD (R187, R190). -/

namespace Sys2Proof.Machine

/-! ### The WR.CMD that is not accepted (R181, R187) -/

theorem exec_wrCmd_dropped {s : State} {v : Word} (hb : s.busy = true) :
    exec (.wrCmd v) s = .next (s.dropCommand.reply .written) := by
  rw [exec, execWrCmd, writeCmd_busy s v hb]

theorem exec_wrCmd_rejected {s : State} {v : Word} {e : CmdError} (hidle : s.busy = false)
    (hcheck : s.check v = some e) : exec (.wrCmd v) s = .next (((s.storeCmd v).reject e).reply .written) := by
  rw [exec, execWrCmd, writeCmd_rejected s v e hidle hcheck]

/-! ### The checks, on the bits and the numbers of the word (R188) -/

/-- A word meets a mask iff it has a bit that the mask has. -/
theorem and_mask_ne_zero_iff {n : Nat} (v mask : BitVec n) :
    v &&& mask ≠ 0#n ↔ ∃ b, mask.getLsbD b = true ∧ v.getLsbD b = true := by
  rw [ne_eq, BitVec.eq_of_getLsbD_eq_iff]
  simp only [BitVec.getLsbD_and, BitVec.getLsbD_zero, not_forall, Bool.not_eq_false, Bool.and_eq_true]
  constructor
  · rintro ⟨b, -, hv, hmask⟩
    exact ⟨b, hmask, hv⟩
  · rintro ⟨b, hmask, hv⟩
    exact ⟨b, BitVec.lt_of_getLsbD hv, hv, hmask⟩

theorem getLsbD_reservedMask (b : Nat) : reservedMask.getLsbD b = true ↔ b = 7 ∨ b = 11 ∨ 13 ≤ b ∧ b < 32 := by
  have hbits : ∀ b < 32, reservedMask.getLsbD b = true ↔ b = 7 ∨ b = 11 ∨ 13 ≤ b ∧ b < 32 := by decide
  by_cases hb : b < 32
  · exact hbits b hb
  · have hzero : reservedMask.getLsbD b = false := BitVec.getLsbD_of_ge _ _ (Nat.le_of_not_lt hb)
    simp only [hzero, Bool.false_eq_true, false_iff]
    omega

theorem and_reservedMask_ne_zero_iff (v : Word) : v &&& reservedMask ≠ 0#32 ↔
    v.getLsbD 7 = true ∨ v.getLsbD 11 = true ∨ ∃ b, 13 ≤ b ∧ b < 32 ∧ v.getLsbD b = true := by
  simp only [and_mask_ne_zero_iff, getLsbD_reservedMask, or_and_right, exists_or, exists_eq_left, and_assoc]

theorem toNat_cmdW (v : Word) : (cmdW v).toNat = v.toNat / 16 % 8 := by
  simp [cmdW, Nat.shiftRight_eq_div_pow]

theorem toNat_cmdH (v : Word) : (cmdH v).toNat = v.toNat / 256 % 8 := by
  simp [cmdH, Nat.shiftRight_eq_div_pow]

/-- A command uses an unwritten slot iff there is one in its W by H block. -/
theorem exists_invalid_cmdPosition_iff (s : State) (v : Word) :
    (∃ pos ∈ cmdPositions v, s.valid pos = false) ↔
      ∃ x y, x < (cmdW v).toNat ∧ y < (cmdH v).toNat ∧ s.valid (x + 4 * y) = false := by
  simp only [cmdPositions, mem_usedPositions]
  constructor
  · rintro ⟨_, ⟨x, y, hx, hy, rfl⟩, hinvalid⟩
    exact ⟨x, y, hx, hy, hinvalid⟩
  · rintro ⟨x, y, hx, hy, hinvalid⟩
    exact ⟨_, ⟨x, y, hx, hy, rfl⟩, hinvalid⟩

/-! ### The first check that fails (R188) -/

section
variable {s : State} {v : Word}

theorem check_of_reservedBits (hr : v &&& reservedMask ≠ 0#32) : s.check v = some .reservedBits :=
  if_pos hr

theorem check_of_reservedMode (hr : v &&& reservedMask = 0#32) (hm : cmdMode v = 3#2) :
    s.check v = some .reservedMode := by
  simp [State.check, hr, hm]

theorem check_of_invalidBlockSize (hr : v &&& reservedMask = 0#32) (hm : cmdMode v ≠ 3#2)
    (hsize : ¬ (sizeOk (cmdW v) = true ∧ sizeOk (cmdH v) = true)) : s.check v = some .invalidBlockSize := by
  simp [State.check, hr, hm, hsize]

theorem check_of_unwrittenPixel (h : LegalCommand v) (hpos : ∃ pos ∈ cmdPositions v, s.valid pos = false) :
    s.check v = some .unwrittenPixel := by
  rw [check_of_legalCommand s h, if_neg (by simpa using hpos)]

end

/-! ### What holds until the next undropped WR.CMD (R187, R190) -/

theorem LegalCommand.exists_decodeCmd {v : Word} (h : LegalCommand v) : ∃ i, decodeCmd v = .ok i := by
  obtain ⟨hreserved, hmode, -, -⟩ := h
  simpa [hmode] using decodeCmd_of_mode hreserved

/-- A host's turn leaves ERR and does not clear DROP, unless it is a WR.CMD while IDLE. -/
theorem AccessEffect.wrCmd_or_holds {a : Access} {s t : State} (h : AccessEffect a s t) :
    (s.busy = false ∧ ∃ v, decodeAccess a = .ok (.wrCmd v)) ∨
      t.err = s.err ∧ (s.drop = true → t.drop = true) := by
  cases h with
  | error e hd ht => subst ht; exact .inr ⟨rfl, id⟩
  | read i v hd hi ht => subst ht; exact .inr ⟨rfl, id⟩
  | writePix k v hd ht => subst ht; exact .inr ⟨rfl, id⟩
  | writeCmd v hd ht =>
    subst ht
    cases hb : s.busy with
    | false => exact .inl ⟨rfl, v, hd⟩
    | true => rw [writeCmd_busy s v hb]; exact .inr ⟨rfl, fun _ => rfl⟩

/-- An encoder's turn leaves ERR and DROP: the snapshot of a running command is legal. -/
theorem EncoderEffect.holds {s t : State} (h : EncoderEffect s t) (hs : s.Inv) :
    t.err = s.err ∧ t.drop = s.drop := by
  cases h with
  | idle hb ht => subst ht; exact ⟨rfl, rfl⟩
  | complete mode ws hb hw hh ht => subst ht; exact ⟨rfl, rfl⟩
  | illegal e hb hsnap ht =>
    have hlegal := hs.snap_legal hb
    obtain ⟨i, hi⟩ := hlegal.exists_decodeCmd
    obtain ⟨-, -, hw, hh⟩ := hlegal
    simp [hi, hw, hh] at hsnap

/-- A step leaves ERR and does not clear DROP, unless it is a reset or an undropped WR.CMD. -/
theorem State.Inv.step_holds {s t : State} (hs : s.Inv) (hstep : step s = .next t) :
    (s.NextIsReset ∧ t.err = 0#4) ∨ (s.busy = false ∧ ∃ v, s.NextAccess (.wrCmd v)) ∨
      t.err = s.err ∧ (s.drop = true → t.drop = true) := by
  rcases step_cases hstep with ⟨a, rest, hturn, heff⟩ | ⟨-, heff⟩ | ⟨rest, hturn, rfl⟩
  · simp only [nextAccess_iff hturn]
    exact .inr heff.wrCmd_or_holds
  · obtain ⟨herr, hdrop⟩ := heff.holds (hs.withTurns _)
    exact .inr (.inr ⟨herr, fun h => hdrop.trans h⟩)
  · exact .inl ⟨⟨rest, hturn⟩, rfl⟩

end Sys2Proof.Machine

namespace Sys2Proof.Proofs

open Sys2Proof.Machine

/-- Settles O9: of the effects of a turn only a reset and an undropped WR.CMD clear DROP. -/
theorem writeCmdWhileBusyIsDropped : Obligations.WriteCmdWhileBusyIsDropped := by
  refine ⟨fun _ _ => exec_wrCmd_dropped, fun s t hs hstep hdrop hclear => ?_⟩
  rcases hs.step_holds hstep with ⟨hreset, -⟩ | hwrite | ⟨-, hholds⟩
  · exact .inl hreset
  · exact .inr hwrite
  · exact absurd (hclear.symm.trans (hholds hdrop)) nofun

/-- Settles O10: the outcomes of CHECK exclude each other, so the first check that fails names the outcome. -/
theorem checkReportsFirstFailingCheck : Obligations.CheckReportsFirstFailingCheck := by
  intro s v reserved mode w h badSize unwritten
  have hreserved : v &&& reservedMask ≠ 0#32 ↔ reserved := and_reservedMask_ne_zero_iff v
  have hmode : cmdMode v = 3#2 ↔ mode = 3 := cmdMode_eq_three_iff v
  have hsize : ¬ (sizeOk (cmdW v) = true ∧ sizeOk (cmdH v) = true) ↔ badSize := by
    rw [sizeOk_iff, sizeOk_iff, toNat_cmdW, toNat_cmdH, not_and_or]
  have hunwritten : (∃ pos ∈ cmdPositions v, s.valid pos = false) ↔ unwritten := by
    rw [exists_invalid_cmdPosition_iff, toNat_cmdW, toNat_cmdH]
    rfl
  by_cases hr : reserved
  case pos => simp [check_of_reservedBits (hreserved.mpr hr), hr]
  have hr' : v &&& reservedMask = 0#32 := not_not.mp (hreserved.not.mpr hr)
  by_cases hm : mode = 3
  case pos => simp [check_of_reservedMode hr' (hmode.mpr hm), hr, hm]
  by_cases hs : badSize
  case pos => simp [check_of_invalidBlockSize hr' (hmode.not.mpr hm) (hsize.mpr hs), hr, hm, hs]
  have hlegal : LegalCommand v := ⟨hr', hmode.not.mpr hm, not_not.mp (hsize.not.mpr hs)⟩
  by_cases hu : unwritten
  case pos => simp [check_of_unwrittenPixel hlegal (hunwritten.mpr hu), hr, hm, hs, hu]
  have hnone : s.check v = none := (check_eq_none_iff s v).mpr ⟨hlegal, by simpa using hunwritten.not.mpr hu⟩
  simp [hnone, hr, hm, hs, hu]

/-- Settles O56: of the effects of a turn only a reset and an undropped WR.CMD write ERR. -/
theorem errHoldsUntilNextCommand : Obligations.ErrHoldsUntilNextCommand := by
  refine ⟨fun s t hs hstep hne => ?_, fun s v hidle => ⟨_, rfl, fun hcheck => ?_, fun e hcheck => ?_⟩⟩
  · rcases hs.step_holds hstep with hreset | hwrite | ⟨herr, -⟩
    · exact .inl hreset
    · exact .inr hwrite
    · exact absurd herr hne
  · rw [writeCmd_accepted s v hidle hcheck]; rfl
  · rw [writeCmd_rejected s v e hidle hcheck]; rfl

/-- Settles O8: rejection after the store of CMD, which CHECK does not read. -/
theorem writeCmdRejectsWithErrorCode : Obligations.WriteCmdRejectsWithErrorCode :=
  ⟨fun _ _ _ => exec_wrCmd_rejected, rfl, rfl, rfl, rfl⟩

/-- Settles O50: a turn that brings no instruction answers its state, and every instruction answers a next state. -/
theorem everyStepAnswersNext : Obligations.EveryStepAnswersNext := by
  intro s
  cases hf : fetch s with
  | run i s' => rw [step_of_fetch_run hf]; exact exec_answers_next i s'
  | done s' => exact ⟨s', step_of_fetch_done hf⟩

end Sys2Proof.Proofs
end

section
/-! SUPPORT. The statements of 70_reset_and_hazards.md: what reset writes (R200, R201), the running encode that no
access reaches (R205, R206), the end of an old DONE (R207) and the reads that change nothing (R208). -/

namespace Sys2Proof.Machine

/-! ### Reads (R208) -/

/-- A read gives a word of DXTE's registers, whatever was answered before, and only its response is recorded. -/
theorem exec_read {i : Instr} (hi : i = .rdCmd ∨ i = .rdStatus ∨ (∃ k, i = .rdPix k) ∨ ∃ j, i = .rdOut j)
    (s : State) :
    ∃ v : Word, ∀ rs : List Reply, exec i { s with replies := rs } = .next { s with replies := .data v :: rs } := by
  rcases hi with rfl | rfl | ⟨k, rfl⟩ | ⟨j, rfl⟩
  · exact ⟨s.cmd, fun _ => rfl⟩
  · exact ⟨s.statusWord, fun _ => rfl⟩
  · exact ⟨s.readPix k, fun _ => rfl⟩
  · exact ⟨s.readOut j, fun _ => rfl⟩

theorem readPix_of_invalid {s : State} {k : Fin 16} (hk : s.valid k.val = false) : s.readPix k = 0#32 := by
  simp [State.readPix, hk]

/-! ### Reset (R200) -/

/-- The reset turn gives the reset action's state, whether or not an encode runs. -/
theorem step_of_reset {s : State} {rest : List Turn} (ht : s.turns = .reset :: rest) :
    step s = .next (s.withTurns rest).platformReset :=
  step_of_fetch_done (by rw [fetch, ht])

/-- The state after power-on is one that the reset action leaves. -/
theorem platformReset_reset : State.reset.platformReset = State.reset := rfl

end Sys2Proof.Machine

namespace Sys2Proof.Proofs

open Sys2Proof.Machine

/-- Settles O57: every host's turn answers by one of its effects, and while BUSY each holds the encode as it is. -/
theorem hostAccessLeavesRunningEncode : Obligations.HostAccessLeavesRunningEncode := by
  intro s hb ⟨a, rest, hturn⟩
  obtain ⟨t, hstep, heff⟩ := step_access hturn
  have hsame : (s.withTurns rest).SameEncode t := heff.sameEncode hb
  exact ⟨t, hstep, hsame.hidden, hsame.cmd, hsame.busy.trans hb, hsame.done, hsame.err, hsame.out⟩

/-- Settles O6: the word read does not depend on the responses, which are all a read adds to. -/
theorem readsHaveNoSideEffect : Obligations.ReadsHaveNoSideEffect := by
  intro i hi s
  obtain ⟨v, hread⟩ := exec_read hi s
  exact ⟨v, hread s.replies, hread (.data v :: s.replies)⟩

/-- Settles O11: acceptance clears DONE, and a rejection reports a code, which is never 0. -/
theorem noStaleDoneAfterWriteCmd : Obligations.NoStaleDoneAfterWriteCmd := by
  intro s v hidle
  cases hcheck : s.check v with
  | none => exact ⟨_, exec_wrCmd_accepted hidle hcheck, .inl ⟨rfl, rfl, rfl⟩⟩
  | some e => exact ⟨_, exec_wrCmd_rejected hidle hcheck, .inr ⟨rfl, rfl, errCode_ne_zero e⟩⟩

/-- Settles O51: reset clears BUSY, and the encoder's turn of an IDLE machine passes. -/
theorem resetStepClearsAndAbandons : Obligations.ResetStepClearsAndAbandons := by
  refine ⟨fun s rest hturn => step_of_reset hturn, fun s t ⟨rest, hturn⟩ hstep hnext => ?_⟩
  have hidle : t.busy = false := by
    rw [← Host.Outcome.next.inj ((step_of_reset hturn).symm.trans hstep), State.platformReset_busy]
  exact stepRunsSnapshotCommand.2 t hnext hidle

/-- Settles O52: PV is 0 after reset, so every slot reads as 0 whatever PIX holds. -/
theorem resetStateHasSpecValues : Obligations.ResetStateHasSpecValues := by
  refine ⟨rfl, rfl, rfl, rfl, fun i => Vector.getElem_replicate i.isLt, fun k => readPix_of_invalid ?_⟩
  exact BitVec.getLsbD_zero

/-- Settles O60: every state that the reset action leaves meets the invariant. -/
theorem resetMeetsInvariant : Obligations.ResetMeetsInvariant := by
  have hinv : State.reset.platformReset.Inv := inv_platformReset State.reset
  rwa [platformReset_reset] at hinv

end Sys2Proof.Proofs
end
